-- ==== Sys2Proof/Word.lean ====
section
/-! DEFINITION. The value types of the block: command words, bytes, response words, Pixels (R8, R11, R15). -/

namespace Sys2Proof

/-- A command word, `CMD_W` = 32 bits (R8, R50). -/
abbrev Word := BitVec 32

/-- One colour channel, or one byte on offer to the collaborator: `CH_W` = 8 bits (R8, R15). -/
abbrev Byte := BitVec 8

/-- A response word, `RSP_W` = 9 bits (R8, R59). -/
abbrev Rsp := BitVec 9

/-- A Pixel: red, green, blue, in the operand order of SET (R11, R15, R33). -/
structure Pixel where
  r : Byte
  g : Byte
  b : Byte
  deriving DecidableEq, Repr

/-- The three channels of a Pixel (R7, `CHANNELS`). -/
inductive Channel where
  | red
  | green
  | blue
  deriving DecidableEq, Repr

/-- `p.r`, `p.g`, `p.b` (R11). -/
def Pixel.channel (p : Pixel) : Channel → Byte
  | .red => p.r
  | .green => p.g
  | .blue => p.b

/-- The colour CLEAR writes (R78) and the PixelBuffer holds at reset (R27). -/
def Pixel.black : Pixel := ⟨0, 0, 0⟩

end Sys2Proof
end

