-- ==== Sys2Proof/Config.lean ====
section
/-! DEFINITION. The parameters: those the document fixes (R7), those the spec decided, and the four OPEN
ones (R8), which the model takes as an argument (`Params`, a field of State) and which have no value here. -/

namespace Sys2Proof

/-- `GRID_W`, columns (R7). -/
abbrev Config.gridW : Nat := 5

/-- `GRID_H`, rows (R7). -/
abbrev Config.gridH : Nat := 5

/-- `LED_COUNT`, Pixels of the PixelBuffer (R7). -/
abbrev Config.ledCount : Nat := 25

/-- `CHANNELS` of a Pixel (R7). -/
abbrev Config.channels : Nat := 3

/-- `FRAME_BYTES`, bytes of one burst (R7). -/
abbrev Config.frameBytes : Nat := 75

/-- `CH_MIN`, the least value of a colour channel (R7). -/
abbrev Config.chMin : Nat := 0

/-- `CH_MAX`, the greatest value of a colour channel (R7); a `Byte` holds exactly `CH_MIN` to `CH_MAX`. -/
abbrev Config.chMax : Nat := 255

/-- `WIRE_ORDER`: the order of a Pixel's three bytes on the wire (R7, R33, R85). -/
def Config.wireOrder : List Channel := [.green, .red, .blue]

/-- `CURSOR_RESET`: the host's cursor at start, `(x, y)` (R7). -/
abbrev Config.cursorReset : Nat × Nat := (0, 0)

/-- `F_SERIAL_HZ`: the bit clock of the serial line, "about" this; the collaborator owns it and no rule reads it
(R7, R155). -/
abbrev Config.fSerialHz : Nat := 800000

/-- `T_SETTLE_US`: default, and least value, of the settle time in microseconds (R7, conflict C5). -/
abbrev Config.tSettleUs : Nat := 100

/-- `T_DEAD_MS`: default of the host's dead-time (R7). -/
abbrev Config.tDeadMs : Nat := 200

/-- `T_IDLE_MS`: default of the host's idle delay (R7). -/
abbrev Config.tIdleMs : Nat := 50

/-- `CURSOR_COLOUR`: full white (R7). -/
def Config.cursorColour : Pixel := ⟨255, 255, 255⟩

/-- `BIT_ORDER`: which bit of a byte the collaborator shifts out first (R8, R34, R95). -/
inductive BitOrder where
  | msbFirst
  | lsbFirst
  deriving DecidableEq, Repr, Inhabited

/-- An axis of the grid; `AXIS_A` is the one that the first-polled button moves (R8, R109). -/
inductive Axis where
  | x
  | y
  deriving DecidableEq, Repr, Inhabited

/-- The launch parameters: fixed for a machine, arguments of the model (R7, R8). No step changes them. -/
structure Params where
  /-- `TX_FALLIBLE`: may the collaborator answer a byte with failure (R8, R88)? -/
  txFallible : Bool
  /-- `BIT_ORDER` (R8). -/
  bitOrder : BitOrder
  /-- `AXIS_A` (R8). -/
  axisA : Axis
  /-- `F_CLK_HZ`, the block's clock (R8). -/
  fClkHz : Nat
  /-- By how many microseconds `T_SETTLE_US` exceeds its minimum of 100, which it may not undercut (R7, C5). -/
  settleOverUs : Nat
  /-- `T_DEAD_MS` (R7). -/
  tDeadMs : Nat
  /-- `T_IDLE_MS` (R7). -/
  tIdleMs : Nat
  deriving DecidableEq, Repr

/-- `TX_FALLIBLE` of the machine that `State.reset` is: OPEN, without a value (log 2). -/
opaque Config.txFallible : Bool

/-- `BIT_ORDER` of the machine that `State.reset` is: OPEN, without a value (log 2). -/
opaque Config.bitOrder : BitOrder

/-- `AXIS_A` of the machine that `State.reset` is: OPEN, without a value (log 2). -/
opaque Config.axisA : Axis

/-- `F_CLK_HZ` of the machine that `State.reset` is: OPEN, without a value (log 2). -/
opaque Config.fClkHz : Nat

/-- The parameters of the machine that `State.reset` is: the OPEN ones free, the delays at the
document's defaults (R7). -/
def Config.launch : Params :=
  { txFallible := Config.txFallible, bitOrder := Config.bitOrder, axisA := Config.axisA,
    fClkHz := Config.fClkHz, settleOverUs := 0, tDeadMs := Config.tDeadMs,
    tIdleMs := Config.tIdleMs }

end Sys2Proof
end

