-- ==== Sys2Proof/Syntax.lean ====
section
/-! DEFINITION. The four operations as terms (R49, R50): operands are natural numbers bounded by their
field widths (`Instr.wellFormed`, R54); a channel's field carries exactly 0 to 255, so it is a byte. -/

namespace Sys2Proof

/-- A command at the operation level (R49, R55, R60). -/
inductive Instr where
  /-- `MAP x, y`: grid coordinate to physical index (R67). -/
  | map (x y : Nat)
  /-- `SET index, r, g, b`: write one Pixel (R75). -/
  | set (index : Nat) (r g b : Byte)
  /-- `CLEAR`: every Pixel to black (R78). -/
  | clear
  /-- `FLUSH`: send the PixelBuffer (R83). -/
  | flush
  deriving DecidableEq, Repr

end Sys2Proof
end

