-- ==== Sys2Proof/WellFormed.lean ====
section
/-! DEFINITION. Which terms a command word can carry (R54): each operand within its field's width. Being
well-formed is not being in range: `MAP 7, 7` and `SET 31, 0, 0, 0` are well-formed and raise OutOfRange. -/

namespace Sys2Proof

/-- The operands fit their fields: `x` and `y` three bits, `index` five bits (R54). -/
def Instr.wellFormed : Instr → Bool
  | .map x y => decide (x < 8) && decide (y < 8)
  | .set index _ _ _ => decide (index < 32)
  | .clear => true
  | .flush => true

end Sys2Proof
end

