-- ==== Sys2Proof/Decode.lean ====
section
/-! DEFINITION. The total decoder of command words and its inverse (R50 to R58, R62). -/

namespace Sys2Proof

/-- `w[hi:lo]` as an unsigned integer (R11, R54). -/
def field (w : Word) (hi lo : Nat) : Nat := w.toNat / 2 ^ lo % 2 ^ (hi + 1 - lo)

/-- `w[hi:lo]` as a colour channel, for the 8-bit fields (R52). -/
def channelField (w : Word) (hi lo : Nat) : Byte := BitVec.ofNat 8 (field w hi lo)

/-- The decoder of R62; `none` is its `Illegal`. -/
def decode (w : Word) : Option Instr :=
  if field w 31 29 = 1 ∧ field w 28 7 = 0 ∧ field w 3 3 = 0 then
    some (.map (field w 2 0) (field w 6 4))
  else if field w 31 29 = 2 then
    some (.set (field w 28 24) (channelField w 23 16) (channelField w 15 8) (channelField w 7 0))
  else if field w 31 29 = 3 ∧ field w 28 0 = 0 then some .clear
  else if field w 31 29 = 4 ∧ field w 28 0 = 0 then some .flush
  else none

/-- `zext_32` of the low `n` bits of an operand (R11, R54). -/
def operandBits (n v : Nat) : Word := (BitVec.ofNat n v).setWidth 32

/-- The encoder of R62. Of an operand that is too wide for its field (no word carries it) it takes the
field's bits (DESIGN CHOICE, log 9). -/
def encode : Instr → Word
  | .map x y => 0x20000000#32 ||| (operandBits 3 y <<< 4) ||| operandBits 3 x
  | .set index r g b =>
    0x40000000#32 ||| (operandBits 5 index <<< 24) ||| (r.setWidth 32 <<< 16) |||
      (g.setWidth 32 <<< 8) ||| b.setWidth 32
  | .clear => 0x60000000#32
  | .flush => 0x80000000#32

/-- One row of the opcode map (R55). -/
structure OpRow where
  mnemonic : String
  pattern : Word
  mask : Word
  deriving DecidableEq, Repr

/-- The complete opcode map of R55: `match` and `mask`. -/
def opRows : List OpRow :=
  [⟨"MAP", 0x20000000#32, 0xFFFFFF88#32⟩, ⟨"SET", 0x40000000#32, 0xE0000000#32⟩,
   ⟨"CLEAR", 0x60000000#32, 0xFFFFFFFF#32⟩, ⟨"FLUSH", 0x80000000#32, 0xFFFFFFFF#32⟩]

/-- A word is the operation of a row exactly when `w & mask == match` (R55). -/
def OpRow.matchesWord (row : OpRow) (w : Word) : Bool := w &&& row.mask == row.pattern

/-- The row name of an operation (R55). -/
def Instr.mnemonic : Instr → String
  | .map _ _ => "MAP"
  | .set _ _ _ _ => "SET"
  | .clear => "CLEAR"
  | .flush => "FLUSH"

/-- The instruction read from a word given in the opcode table's numbering: one command is one 32-bit
transfer (R50, R58), so the table's bits are the command word's bits; bits above `nbits` are 0. -/
def decodeTableWord (nbits w : Nat) : Option Instr := decode (BitVec.ofNat 32 (w % 2 ^ nbits))

end Sys2Proof
end

