-- ==== Sys2Proof/Machine/State.lean ====
section
/-! DEFINITION. The state: the block (R13), its observations (R12, R20), the neighbours' coming answers
(R9, R133), the host (R26, R101) and the launch parameters (R8). Plain data. -/

namespace Sys2Proof.Machine

/-- The PixelBuffer's bytes (R15), in one canonical form (`Memory.wf`): addresses rising, zero bytes not
listed. Byte `3*i + c` is channel `c` (0 red, 1 green, 2 blue) of Pixel `i`; the order of the channels in
storage is not observable (R33; DESIGN CHOICE, log 1). An unlisted byte reads 0, the reset contents (R27; log 19). -/
abbrev Memory := List Host.Cell

/-- What ends a machine for good. The spec has no such thing: its four faults are recorded in `FAULT` and
answered (R119, R121, R126), and a stuck block waits (R94); so there is no constructor. -/
inductive Fault where
  deriving DecidableEq, Repr

/-- Why an instruction has no meaning. -/
inductive Refusal where
  /-- Raised by an arm of `exec` whose instruction is not modelled yet; safe. No arm raises it now. -/
  | notModelled (mnemonic : String)
  deriving DecidableEq, Repr

/-- `FAULT.cause` (R19, R119). -/
inductive Cause where
  | none
  | outOfRange
  | resourceExhausted
  | ioFailure
  | illegalCommand
  deriving DecidableEq, Repr

/-- The fault register (R19). -/
structure FaultReg where
  cause : Cause
  info : Word
  deriving DecidableEq, Repr

/-- `TXPHASE` (R17). -/
inductive TxPhase where
  | idle
  | burst
  | settle
  deriving DecidableEq, Repr

/-- An event of `TXTRACE` (R20). -/
inductive TxEvent where
  /-- `TxByte(v)`: the collaborator accepted the byte `v`. -/
  | byte (v : Byte)
  /-- `Settle`: a settle period of at least `T_SETTLE_US` ran to its end. -/
  | settle
  deriving DecidableEq, Repr

/-- What the collaborator does in one of its steps about the byte on offer. -/
inductive TxAnswer where
  /-- It accepts the byte (R87). -/
  | accepted
  /-- It refuses the byte with a failure (R88). -/
  | failed
  /-- It does not answer yet (R94; log 17). -/
  | silent
  deriving DecidableEq, Repr

/-- The serial pixel transmitter collaborator at its interface (R133): its coming answers, first the
listed ones, then `rest` for ever (log 4); and whether it has a transmitter (`TX_AVAILABLE`, R122). -/
structure Collaborator where
  available : Bool
  answers : List TxAnswer
  rest : TxAnswer
  deriving DecidableEq, Repr

/-- What the settle timer does in one of its steps (R89). -/
inductive TimerAnswer where
  /-- The settle is done. -/
  | done
  /-- It still runs: a settle may last longer than its minimum by any amount (R92; log 20). -/
  | running
  deriving DecidableEq, Repr

/-- The settle timer as an agent of the operation level (R9): its coming steps, first the listed ones, then
`rest` for ever. That it fires at all is a duty (R156), so a premise of the statements that need it, and a
timer that never fires is among these data (log 20). -/
structure SettleTimer where
  answers : List TimerAnswer
  rest : TimerAnswer
  deriving DecidableEq, Repr

/-- One button line of the digital input reader (R106): the levels it will answer samples with, first the
listed ones, then `rest` for ever; `true` is physically high, idle, `false` is low, pressed (log 6). -/
structure Line where
  levels : List Bool
  rest : Bool
  deriving DecidableEq, Repr

/-- The two buttons, in polling order (R109). -/
inductive Button where
  | a
  | b
  deriving DecidableEq, Repr

/-- `CursorPosition` (R101). -/
structure Cursor where
  x : Nat
  y : Nat
  deriving DecidableEq, Repr

/-- The cursor at start, `CURSOR_RESET` (R7, R27). -/
def Cursor.reset : Cursor := ⟨Config.cursorReset.1, Config.cursorReset.2⟩

/-- One thing the reference driver does (R103, R108, R110, R146). -/
inductive HostAction where
  /-- The entry point: cursor at (0,0), the first redraw, then the main loop (R110, R146). -/
  | boot
  /-- Issue `CLEAR` (R103). -/
  | clear
  /-- Issue `MAP` of the cursor (R103). -/
  | map
  /-- Issue `SET` of the index that `MAP` answered, in the cursor's colour (R61, R103). -/
  | set
  /-- Issue `FLUSH` (R103). -/
  | flush
  /-- Sample a button line, and move and redraw if it is pressed (R107). -/
  | sample (button : Button)
  /-- Wait so many milliseconds: dead-time or idle delay (R107, R108); the model has no time (DESIGN CHOICE, log 7). -/
  | wait (ms : Nat)
  deriving DecidableEq, Repr

/-- The host (R100): its cursor, whether the reference driver runs it, what the driver does next (with nothing
left it begins the next iteration of the main loop, R110), and the lines it samples. Without the driver it
is any other source of commands: those in `State.cmds` (R100, R112). -/
structure HostState where
  cursor : Cursor
  driver : Bool
  todo : List HostAction
  lineA : Line
  lineB : Line
  deriving DecidableEq, Repr

structure State where
  /-- `PB` (R15). -/
  mem : Memory
  /-- `TXPHASE` (R17). -/
  txPhase : TxPhase
  /-- `TXPOS` (R18). -/
  txPos : BitVec 7
  /-- `FAULT` (R19). -/
  fault : FaultReg
  /-- The response owed for an accepted command (R64). -/
  owed : Option Rsp
  /-- The settle timer's count of clock cycles, at the word level (R64, R132). -/
  settleCount : Nat
  /-- At the word level: `rst` was 1 in the cycle before, so the next cycle without it releases reset (R143). -/
  inReset : Bool
  /-- `TXTRACE`, oldest first (R20). -/
  trace : List TxEvent
  /-- A reset has happened inside this run (R144). -/
  warm : Bool
  /-- The last response given on the response channel, as the host has it (R59, R61). -/
  rsp : Option Rsp
  /-- The responses given so far, oldest first: an observation (R12). -/
  rsps : List Rsp
  /-- The command words on offer, the next one first (R63, R112). -/
  cmds : List Word
  /-- The reset input (R63, R142), set from outside between steps (log 18). -/
  rst : Bool
  /-- The collaborator (R133). -/
  tx : Collaborator
  /-- The settle timer (R9, R89), at the operation level (log 20). -/
  timer : SettleTimer
  /-- The host (R26, R100). -/
  host : HostState
  /-- The launch parameters (R8). -/
  params : Params
  deriving DecidableEq, Repr

/-- The machine right after reset (R27, R142, R143), for any launch parameters and either answer of the
initialisation check. The driver stands at its entry point (R146). What the spec gives no reset value for is a
DESIGN CHOICE: logs 4 (`tx`), 6 (the lines), 11 (`warm`, `rst`), 12 (`owed`, `rsp`, `rsps`), 13 (`settleCount`,
`inReset`), 15 (`cmds`, `driver`, `todo`) and 20 (`timer`). -/
def State.launch (p : Params) (available : Bool) : State :=
  { mem := [], txPhase := .idle, txPos := 0,
    fault := { cause := if available then .none else .resourceExhausted, info := 0 },
    owed := none, settleCount := 0, inReset := false, trace := [], warm := false,
    rsp := none, rsps := [], cmds := [], rst := false,
    tx := { available := available, answers := [], rest := .accepted },
    timer := { answers := [], rest := .done },
    host := { cursor := Cursor.reset, driver := true, todo := [.boot],
              lineA := { levels := [], rest := true }, lineB := { levels := [], rest := true } },
    params := p }

/-- The machine right after reset, with a transmitter available (DESIGN CHOICE, log 3). -/
def State.reset : State := State.launch Config.launch true

end Sys2Proof.Machine
end

