-- ==== Sys2Proof/Machine/Flags.lean ====
section
/-! DEFINITION. The block has no flags (R22). What stands in their place: the status outputs (R23) and the
handshake outputs (R63, R64), each a function of the state. -/

namespace Sys2Proof.Machine

/-- The 3-bit code of a cause (R119). -/
def Cause.code : Cause → BitVec 3
  | .none => 0
  | .outOfRange => 1
  | .resourceExhausted => 2
  | .ioFailure => 3
  | .illegalCommand => 4

/-- `busy`: `TXPHASE != IDLE` (R23). -/
def State.busy (s : State) : Bool := s.txPhase != .idle

/-- `faulted`: `FAULT.cause != 0` (R19, R23). -/
def State.faulted (s : State) : Bool := s.fault.cause != .none

/-- `fault_cause` (R23). -/
def State.faultCause (s : State) : BitVec 3 := s.fault.cause.code

/-- `cmd_ready`, outside reset: no response is owed, and the phase is IDLE or the block is faulted (R64). -/
def State.cmdReady (s : State) : Bool := s.owed.isNone && (s.txPhase == .idle || s.faulted)

/-- `tx_valid`, outside reset: a burst is in progress and the block is not faulted (R87, R126). -/
def State.txValid (s : State) : Bool := s.txPhase == .burst && !s.faulted

/-- The settle timer runs (R89). -/
def State.settling (s : State) : Bool := s.txPhase == .settle && !s.faulted

end Sys2Proof.Machine
end

