-- ==== Sys2Proof/Machine/Operands.lean ====
section
/-! DEFINITION. Operand ranges (R54, R68, R76) and response words (R59). Operands reach an operation inside
its command, so there is no operand fetch and no addressing mode but the immediate index (R14, R35). -/

namespace Sys2Proof.Machine

/-- The coordinate lies on the grid (R68). -/
def coordInRange (x y : Nat) : Bool := decide (x < Config.gridW) && decide (y < Config.gridH)

/-- The physical index names a Pixel (R76). -/
def indexInRange (index : Nat) : Bool := decide (index < Config.ledCount)

/-- The response of a completed operation: `err` 0, `value` in bits 4:0 (R59). -/
def okRsp (value : Nat) : Rsp := (BitVec.ofNat 5 value).setWidth 9

/-- The error response: `err` 1, `cause` in bits 2:0 (R59, R121). -/
def errRsp (c : Cause) : Rsp := 0x100#9 ||| c.code.setWidth 9

/-- Bit 8 of a response (R59). -/
def rspErr (r : Rsp) : Bool := r.getLsbD 8

/-- Bits 4:0 of a response (R59). -/
def rspValue (r : Rsp) : Nat := r.toNat % 32

end Sys2Proof.Machine
end

