-- ==== Sys2Proof/Machine/Ops.lean ====
section
/-! DEFINITION. The shared operations: the PixelBuffer's memory (R11, R15, R36), accepting a command and
answering it (R59, R64), raising a fault (R121), the halted block (R126), reset and the initialisation
check (R142 to R144). -/

namespace Sys2Proof.Machine

/-! ### The PixelBuffer -/

/-- The byte at an address; an unlisted byte reads 0, the reset contents (R27). -/
def Memory.read : Memory → Nat → Byte
  | [], _ => 0#8
  | (a, v) :: m, k => if a = k then v else Memory.read m k

/-- Insert into the canonical form: rising addresses, no zero byte listed. -/
def Memory.insertByte : Memory → Nat → Byte → Memory
  | [], k, v => if v = 0#8 then [] else [(k, v)]
  | (a, u) :: m, k, v =>
    if k < a then (if v = 0#8 then (a, u) :: m else (k, v) :: (a, u) :: m)
    else if k = a then (if v = 0#8 then m else (k, v) :: m)
    else (a, u) :: Memory.insertByte m k v

/-- Write one byte of the 75; there is no byte beyond them (R15, R39), and no rule writes one. -/
def Memory.write (m : Memory) (k : Nat) (v : Byte) : Memory :=
  if k < Config.frameBytes then Memory.insertByte m k v else m

/-- The canonical form from address `lo` on: addresses rising, below 75, no zero byte listed. -/
def Memory.wfFrom : Nat → Memory → Bool
  | _, [] => true
  | lo, (a, v) :: m =>
    decide (lo ≤ a) && decide (a < Config.frameBytes) && v != 0#8 && Memory.wfFrom (a + 1) m

/-- The memory is in its canonical form. -/
def Memory.wf (m : Memory) : Bool := Memory.wfFrom 0 m

/-- `PB[i]` (R11). -/
def Memory.pixel (m : Memory) (i : Nat) : Pixel :=
  ⟨Memory.read m (3 * i), Memory.read m (3 * i + 1), Memory.read m (3 * i + 2)⟩

/-- `PB[i] <- p`: all three channels together (R11, R32). -/
def Memory.setPixel (m : Memory) (i : Nat) (p : Pixel) : Memory :=
  Memory.write (Memory.write (Memory.write m (3 * i) p.r) (3 * i + 1) p.g) (3 * i + 2) p.b

/-- `MemRead(i, n)` (R11). -/
def memRead (m : Memory) (i n : Nat) : List Pixel := (List.range n).map fun j => Memory.pixel m (i + j)

/-- `MemWrite(i, n, vs)`, `n` the length of `vs` (R11). -/
def memWrite : Memory → Nat → List Pixel → Memory
  | m, _, [] => m
  | m, i, p :: ps => memWrite (Memory.setPixel m i p) (i + 1) ps

/-! ### Commands and responses -/

/-- The next command on offer is taken (R64). -/
def State.accept (s : State) : State := { s with cmds := s.cmds.tail }

/-- `resp <- (ok, v)`: the response is now owed (R11, R59). -/
def State.complete (v : Nat) (s : State) : State := { s with owed := some (okRsp v) }

/-- The owed response is given on the response channel (R59, R64). -/
def State.deliver (s : State) : State :=
  { s with owed := none, rsp := s.owed.or s.rsp, rsps := s.rsps ++ s.owed.toList }

/-! ### Faults -/

/-- `FAULT.cause <- code(F); FAULT.info <- info` (R121). -/
def State.recordFault (c : Cause) (info : Word) (s : State) : State :=
  { s with fault := { cause := c, info := info } }

/-- `raise F(info)` by an operation in execution: the fault is recorded, the operation ends, its response
is `(err, code(F))`, and everything else keeps its value (R121). There is no handler and no return (R127). -/
def State.raise (c : Cause) (info : Word) (s : State) : State :=
  { State.recordFault c info s with owed := some (errRsp c) }

/-- A faulted block answers a command with `(err, FAULT.cause)` and changes nothing (R126). -/
def State.answerHalted (s : State) : State := { s with owed := some (errRsp s.fault.cause) }

/-- An operation's body runs only in a block that is not faulted (R126). -/
def guarded (body : State → State) (s : State) : State :=
  if s.faulted then State.answerHalted s else body s

/-- An accepted command runs and is answered when its effect says so; a command to a block that is not
ready stays on offer: nothing changes (R64, R73; log 8). -/
def runCommand (effect : State → State) (s : State) : Host.Outcome State Fault Refusal :=
  if s.cmdReady then .next (State.deliver (effect (State.accept s))) else .next s

/-- The effect of a word that decodes to `Illegal`: `raise IllegalCommand(cmd)` (R56, R124). -/
def illegalEffect (w : Word) : State → State := guarded (State.raise .illegalCommand w)

/-- An accepted word that spells no operation (R56, R124, R126). -/
def execIllegal (w : Word) (s : State) : Host.Outcome State Fault Refusal :=
  runCommand (illegalEffect w) s

/-! ### Reset -/

/-- The host at a reset, which stands for the start of the program (R142, R146): the cursor is (0,0) (R27)
and the driver, where there is one, starts anew at its entry point (log 11). -/
def HostState.restart (h : HostState) : HostState := { h with cursor := Cursor.reset, todo := [.boot] }

/-- Every piece of state to its reset value (R27, R142); `FAULT.cause` is decided at the release (R143). A
reset inside a run is remembered, since DISPLAY is unknown for the rest of the run (R144). -/
def State.resetBlock (s : State) : State :=
  { s with
    mem := [], txPhase := .idle, txPos := 0, fault := { cause := .none, info := 0 },
    owed := none, settleCount := 0, trace := [], warm := s.warm || !s.inReset, rsp := none,
    cmds := if s.host.driver then [] else s.cmds, host := HostState.restart s.host }

/-- The initialisation check at the release of reset: without a transmitter, ResourceExhausted with info 0,
and no response, since no operation is in execution (R122, R143). -/
def State.initCheck (available : Bool) (s : State) : State :=
  if available then s else State.recordFault .resourceExhausted 0 s

/-- Reset is released: `tx_avail` is sampled, once (R143). -/
def State.release (s : State) : State := State.initCheck s.tx.available { s with inReset := false }

/-- Reset inside a run, asserted and released (R142, R143, R144). -/
def State.warmReset (s : State) : State :=
  State.release { State.resetBlock s with rst := false }

end Sys2Proof.Machine
end

