-- ==== Sys2Proof/Machine/HostDriver.lean ====
section
/-! DEFINITION. The host's reference driver: cursor, redraw, input polling, main loop (R100 to R113, R146).
It binds the host, not the block. -/

namespace Sys2Proof.Machine

/-- `move_x`: x ← (x + 1) mod 5 (R102). -/
def Cursor.moveX (c : Cursor) : Cursor := { c with x := (c.x + 1) % Config.gridW }

/-- `move_y`: y ← (y + 1) mod 5 (R102). -/
def Cursor.moveY (c : Cursor) : Cursor := { c with y := (c.y + 1) % Config.gridH }

/-- The move along an axis (R102). -/
def Cursor.move (c : Cursor) : Axis → Cursor
  | .x => Cursor.moveX c
  | .y => Cursor.moveY c

/-- Button A moves along `AXIS_A`, button B along the other axis (R109). -/
def buttonAxis (axisA : Axis) : Button → Axis
  | .a => axisA
  | .b => match axisA with
    | .x => .y
    | .y => .x

/-- The redraw: `CLEAR`, `MAP`, `SET`, `FLUSH` (R61, R103). -/
def redraw : List HostAction := [.clear, .map, .set, .flush]

/-- One polling cycle, which is one iteration of the main loop (R108, R109, R110). -/
def pollCycle (p : Params) : List HostAction := [.sample .a, .sample .b, .wait p.tIdleMs]

/-- The level a line answers the next sample with (R106). -/
def Line.level (l : Line) : Bool := l.levels.headD l.rest

/-- The line after that sample. -/
def Line.advance (l : Line) : Line := { l with levels := l.levels.tail }

/-- The line of a button (R106). -/
def HostState.line (h : HostState) : Button → Line
  | .a => h.lineA
  | .b => h.lineB

/-- The host after sampling a button's line (R106). -/
def HostState.sampled (h : HostState) : Button → HostState
  | .a => { h with lineA := h.lineA.advance }
  | .b => { h with lineB := h.lineB.advance }

/-- The host offers a command; it waits for its response before it does anything else (R64, R112). -/
def State.offer (i : Instr) (rest : List HostAction) (s : State) : State :=
  { s with cmds := [encode i], host := { s.host with todo := rest } }

/-- The host goes on without a command. -/
def State.hostDoes (rest : List HostAction) (s : State) : State :=
  { s with host := { s.host with todo := rest } }

/-- A sample: low is pressed, and a pressed sample is one move, its redraw and its dead-time (R107, R109). -/
def State.hostSample (button : Button) (rest : List HostAction) (s : State) : State :=
  let h := HostState.sampled s.host button
  if Line.level (HostState.line s.host button) then { s with host := { h with todo := rest } }
  else
    { s with
      host :=
        { h with
          cursor := Cursor.move s.host.cursor (buttonAxis s.params.axisA button),
          todo := redraw ++ .wait s.params.tDeadMs :: rest } }

/-- The index that `SET` takes from `MAP`'s response (R61); with an error response, or none, the host has none. -/
def State.hostIndex (s : State) : Option Nat :=
  match s.rsp with
  | some r => if rspErr r then none else some (rspValue r)
  | none => none

/-- One action of the driver (R103, R107, R108). Without an index there is no SET to issue (R61), and the driver
goes on to its next action (DESIGN CHOICE, log 10). -/
def State.hostAct (a : HostAction) (rest : List HostAction) (s : State) : State :=
  match a with
  | .boot =>
    { s with host := { s.host with cursor := Cursor.reset, todo := redraw ++ rest } }
  | .clear => State.offer .clear rest s
  | .map => State.offer (.map s.host.cursor.x s.host.cursor.y) rest s
  | .set =>
    match s.hostIndex with
    | some index =>
      State.offer (.set index Config.cursorColour.r Config.cursorColour.g Config.cursorColour.b) rest s
    | none => State.hostDoes rest s
  | .flush => State.offer .flush rest s
  | .sample button => State.hostSample button rest s
  | .wait _ => State.hostDoes rest s

/-- A step of the host, when no command is on offer and no response is owed. The driver acts, and with nothing
left to do begins the next iteration of its main loop, without end (R110); an error response does not end it
(log 10). Without the driver the host has no command and waits (R136). -/
def State.hostStep (s : State) : State :=
  if s.host.driver then
    match s.host.todo with
    | [] => State.hostDoes (pollCycle s.params) s
    | a :: rest => State.hostAct a rest s
  else s

end Sys2Proof.Machine
end

