-- ==== Sys2Proof/Machine/Packetizer.lean ====
section
/-! DEFINITION. The serial pixel packetizer: FLUSH, and the steps of the collaborator and of the settle
timer that carry it out (R83 to R99). -/

namespace Sys2Proof.Machine

/-- `B(k)`: byte number `k` of a burst, of Pixel `k div 3` the channel that `WIRE_ORDER` has at `k mod 3` (R84,
R85). There is always one, as the order lists all three. -/
def byteAt (m : Memory) (k : Nat) : Byte :=
  Pixel.channel (Memory.pixel m (k / Config.channels)) (Config.wireOrder.getD (k % Config.channels) .green)

/-- The 75 bytes of a frame, byte 0 first (R84, R96). -/
def frame (m : Memory) : List Byte := (List.range Config.frameBytes).map (byteAt m)

/-- The byte the block offers to the collaborator: `B(TXPOS)` in a burst, none where `tx_valid` is 0 (R87, R126). -/
def State.offered (s : State) : Option Byte :=
  if s.txValid then some (byteAt s.mem s.txPos.toNat) else none

/-- The start of a burst (R86). -/
def State.startBurst (s : State) : State := { s with txPhase := .burst, txPos := 0 }

/-- `FLUSH` in a block that takes it: its start step; the response comes when the settle is done (R86, R93). -/
def flushEffect : State → State := guarded State.startBurst

/-- `FLUSH` (R83, R86): the burst starts; the collaborator's and the timer's steps complete it (R98). -/
def execFlush (s : State) : Host.Outcome State Fault Refusal := runCommand flushEffect s

/-- The collaborator accepts the byte on offer (R87). -/
def State.byteAccepted (s : State) : State :=
  { s with
    trace := s.trace ++ [.byte (byteAt s.mem s.txPos.toNat)], txPos := s.txPos + 1,
    txPhase := if s.txPos + 1 = 75 then .settle else .burst, settleCount := 0 }

/-- The collaborator refuses the byte on offer: `raise IoFailure(TXPOS)` (R88). -/
def State.byteFailed (s : State) : State := State.raise .ioFailure (s.txPos.setWidth 32) s

/-- The settle is done: the FLUSH is complete and its response is owed (R89, R93). -/
def State.settleDone (s : State) : State :=
  State.complete 0
    { s with trace := s.trace ++ [.settle], txPhase := .idle, txPos := 0, settleCount := 0 }

/-- The collaborator's next answer. -/
def Collaborator.answer (c : Collaborator) : TxAnswer := c.answers.headD c.rest

/-- The collaborator after that answer. -/
def Collaborator.advance (c : Collaborator) : Collaborator := { c with answers := c.answers.tail }

/-- A step of the collaborator in a burst (R87, R88, R94). Where `TX_FALLIBLE` is false there is no failure:
such an answer is no answer (log 5). -/
def State.collaboratorStep (s : State) : State :=
  let s' := { s with tx := s.tx.advance }
  match s.tx.answer with
  | .accepted => State.byteAccepted s'
  | .failed => if s.params.txFallible then State.deliver (State.byteFailed s') else s'
  | .silent => s'

/-- The settle timer's next step. -/
def SettleTimer.answer (c : SettleTimer) : TimerAnswer := c.answers.headD c.rest

/-- The settle timer after that step. -/
def SettleTimer.advance (c : SettleTimer) : SettleTimer := { c with answers := c.answers.tail }

/-- A step of the settle timer: it fires, and the response is given (R89, R93), or it still runs (R156; logs 7
and 20). -/
def State.timerStep (s : State) : State :=
  let s' := { s with timer := s.timer.advance }
  match s.timer.answer with
  | .done => State.deliver (State.settleDone s')
  | .running => s'

end Sys2Proof.Machine
end

