-- ==== Sys2Proof/Machine/Agents.lean ====
section
/-! DEFINITION. Which agent takes the next step (R9), read from plain data of the state. -/

namespace Sys2Proof.Machine

/-- The agents' steps. -/
inductive Mover where
  /-- The reset input is asserted (R142). -/
  | reset
  /-- Reset is released (R143); a state in the middle of a word-level reset. -/
  | release
  /-- The collaborator, in a burst (R87, R88, R94). -/
  | collaborator
  /-- The settle timer (R89). -/
  | timer
  /-- The block gives a response it owes; owed only in a state of the word level (R64). -/
  | respond
  /-- The block takes the command on offer (R64). -/
  | command (w : Word)
  /-- The host (R100). -/
  | host
  deriving DecidableEq, Repr

/-- Who moves. Reset may land between any two steps (R144). A burst or settle of a block that is not faulted
moves before anything else, since no command is accepted and the host waits (R64, R98); then an owed
response; then the command on offer; then the host (DEDUCED, log 16). -/
def State.mover (s : State) : Mover :=
  if s.rst then .reset
  else if s.inReset then .release
  else if s.txValid then .collaborator
  else if s.settling then .timer
  else if s.owed.isSome then .respond
  else match s.cmds with
    | w :: _ => .command w
    | [] => .host

/-- The command word is placed where the next one is taken from. -/
def State.place (s : State) (w : Word) : State := { s with cmds := w :: s.cmds }

end Sys2Proof.Machine
end

