-- ==== Sys2Proof/Machine/Mapper.lean ====
section
/-! DEFINITION. The coordinate mapper: MAP (R67 to R74). -/

namespace Sys2Proof.Machine

/-- The physical index of a grid coordinate, `index = y*5 + x` on even rows and `y*5 + (4 - x)` on odd
rows (R67). Used only with `x` and `y` on the grid (R68, R69). -/
def mapIndex (x y : Nat) : Nat := if y % 2 = 0 then y * 5 + x else y * 5 + (4 - x)

/-- The inverse of the mapping: the coordinate of a physical index (R70). Not an operation of the block. -/
def mapInverse (i : Nat) : Nat × Nat :=
  if i / 5 % 2 = 0 then (i % 5, i / 5) else (4 - i % 5, i / 5)

/-- The generalisation to a grid `w` wide that R74 records; no rule uses it. -/
def mapIndexWide (w x y : Nat) : Nat := if y % 2 = 0 then y * w + x else y * w + (w - 1 - x)

/-- `MAP x, y` in a block that takes it (R67, R68). -/
def mapEffect (x y : Nat) : State → State :=
  guarded fun s =>
    if coordInRange x y then State.complete (mapIndex x y) s
    else State.raise .outOfRange (encode (.map x y)) s

/-- `MAP x, y` (R67). -/
def execMap (x y : Nat) (s : State) : Host.Outcome State Fault Refusal := runCommand (mapEffect x y) s

end Sys2Proof.Machine
end

