-- ==== Sys2Proof/Machine/PixelBuffer.lean ====
section
/-! DEFINITION. The operations that write the PixelBuffer: SET and CLEAR (R75 to R82). -/

namespace Sys2Proof.Machine

/-- `SET index, r, g, b` in a block that takes it (R75, R76). -/
def setEffect (index : Nat) (r g b : Byte) : State → State :=
  guarded fun s =>
    if indexInRange index then
      State.complete 0 { s with mem := memWrite s.mem index [⟨r, g, b⟩] }
    else State.raise .outOfRange (encode (.set index r g b)) s

/-- `SET index, r, g, b` (R75). -/
def execSet (index : Nat) (r g b : Byte) (s : State) : Host.Outcome State Fault Refusal :=
  runCommand (setEffect index r g b) s

/-- `CLEAR` in a block that takes it: the 25 writes are one step (R37, R78). -/
def clearEffect : State → State :=
  guarded fun s =>
    State.complete 0 { s with mem := memWrite s.mem 0 (List.replicate Config.ledCount Pixel.black) }

/-- `CLEAR` (R78). -/
def execClear (s : State) : Host.Outcome State Fault Refusal := runCommand clearEffect s

end Sys2Proof.Machine
end

