-- ==== Sys2Proof/Machine/Step.lean ====
section
/-! DEFINITION. One step of the machine: the step of the agent whose turn it is (R9). -/

namespace Sys2Proof.Machine

/-- One step. A command is decoded and executed; a word that spells no operation raises IllegalCommand
(R62, R124). Nothing stops the machine. -/
def step (s : State) : Host.Outcome State Fault Refusal :=
  match s.mover with
  | .reset => .next s.warmReset
  | .release => .next s.release
  | .collaborator => .next s.collaboratorStep
  | .timer => .next s.timerStep
  | .respond => .next s.deliver
  | .command w =>
    match decode w with
    | some i => exec i s
    | none => execIllegal w s
  | .host => .next s.hostStep

/-- `s` with the instruction of a table word on offer as the next command (R63): one command is one 32-bit
transfer. How a program comes to run from reset: log 15. -/
def State.withFetchWord (s : State) (nbits w : Nat) : State :=
  State.place s (BitVec.ofNat 32 (w % 2 ^ nbits))

end Sys2Proof.Machine
end

