-- ==== Sys2Proof/Machine/Ports.lean ====
section
/-! DEFINITION. The word level: the block's ports and one cycle of `clk` (R63, R64, R89, R91, R142, R143).
The same operations as at the operation level (R49); here the inputs come on pins, the settle is a count
of cycles, and a response may come in a later cycle than its operation's end. -/

namespace Sys2Proof

/-- `T_SETTLE_US`, never under its minimum (R7, R92, C5). -/
def Params.tSettleUs (p : Params) : Nat := Config.tSettleUs + p.settleOverUs

/-- `N_SETTLE = ceil(T_SETTLE_US * F_CLK_HZ / 1 000 000)`: the settle in clock cycles (R8). -/
def Params.nSettle (p : Params) : Nat := (p.tSettleUs * p.fClkHz + 999999) / 1000000

end Sys2Proof

namespace Sys2Proof.Machine

/-- The block's inputs in one cycle (R63), and one free input that is no pin. -/
structure Pins where
  rst : Bool
  cmdValid : Bool
  cmd : Word
  txReady : Bool
  txErr : Bool
  txAvail : Bool
  /-- Not a pin: whether the block gives the response it owes in this cycle. The spec lets it come "in a
  later cycle or the same one" (R64) and gives no latency (R155); free in every cycle (log 12). -/
  giveRsp : Bool
  deriving DecidableEq, Repr

/-- The block's outputs in one cycle (R63). `rsp` and `txData` are `none` where their valid signal is 0. -/
structure Outs where
  cmdReady : Bool
  /-- `rsp_valid` and `rsp`. -/
  rsp : Option Rsp
  /-- `tx_valid` and `tx_data`. -/
  txData : Option Byte
  busy : Bool
  faulted : Bool
  faultCause : BitVec 3
  deriving DecidableEq, Repr

/-- The effect of an accepted command word, its response then owed (R62, R64). -/
def cmdEffect (w : Word) : State → State :=
  match decode w with
  | some (.map x y) => mapEffect x y
  | some (.set index r g b) => setEffect index r g b
  | some .clear => clearEffect
  | some .flush => flushEffect
  | none => illegalEffect w

/-- The byte channel's handshake: failed whatever `tx_ready` is, accepted, or held (R64). `tx_err` is tied
to 0 where `TX_FALLIBLE` is false (R63). -/
def byteCycle (p : Pins) (s : State) : State :=
  if p.txErr && s.params.txFallible then State.byteFailed s
  else if p.txReady then State.byteAccepted s
  else s

/-- One cycle of the settle timer: `N_SETTLE` cycles, the first being the cycle after byte 74 is accepted
(R64, R89; log 13). -/
def settleCycle (s : State) : State :=
  if s.params.nSettle ≤ s.settleCount + 1 then State.settleDone s
  else { s with settleCount := s.settleCount + 1 }

/-- What one cycle without reset does, but for giving a response (R64, R87 to R89). DESIGN CHOICE, log 21: the
spec gives MAP, SET and CLEAR no cycle count (R155, U15); here the write of `PB` or of `FAULT` that a command
makes, an illegal word's too, lands at the edge that accepts it, so that the status outputs show it in the
next cycle, be the response given then or later. (That a FLUSH's byte 0 is on offer in that cycle is R91.) -/
def blockCycle (p : Pins) (s : State) : State :=
  if s.txValid then byteCycle p s
  else if s.settling then settleCycle s
  else if p.cmdValid && s.cmdReady then cmdEffect p.cmd s
  else s

/-- The release of reset: at the first edge at which `rst` is 0, `tx_avail` is sampled (R143). -/
def releaseCycle (p : Pins) (s : State) : State :=
  if s.inReset then State.initCheck p.txAvail { s with inReset := false } else s

/-- The outputs of a cycle without reset, in a state whose release has been made. -/
def outsOf (s : State) (given : Option Rsp) : Outs :=
  { cmdReady := s.cmdReady, rsp := given,
    txData := s.offered,
    busy := s.busy, faulted := s.faulted, faultCause := s.faultCause }

/-- One cycle of `clk`. While `rst` is 1 the state takes its reset value, no command is accepted, no byte is
offered and no response is given (R142). -/
def cycle (p : Pins) (s : State) : State × Outs :=
  if p.rst then
    ({ State.resetBlock s with inReset := true },
      { cmdReady := false, rsp := none, txData := none,
        busy := s.busy, faulted := s.faulted, faultCause := s.faultCause })
  else
    let s₁ := releaseCycle p s
    let s₂ := blockCycle p s₁
    if p.giveRsp then (State.deliver s₂, outsOf s₁ s₂.owed) else (s₂, outsOf s₁ none)

/-- Cycles one after another: the last state. -/
def runCycles : List Pins → State → State
  | [], s => s
  | p :: ps, s => runCycles ps (cycle p s).1

end Sys2Proof.Machine
end

