-- ==== Sys2Proof/Machine/Observe.lean ====
section
/-! DEFINITION. What an observer sees beside the responses: the LED display (R21, R144, R145) and the bit
view of a byte on the wire (R95). Neither is state of the block, and no step reads them. -/

namespace Sys2Proof.Machine

/-- Channel `c` of the Pixel whose three bytes came in `WIRE_ORDER` (R21, R33). -/
def wireByte (bytes : List Byte) (c : Channel) : Byte := bytes.getD (Config.wireOrder.idxOf c) 0

/-- The Pixels of a burst's bytes, each from a triple in `WIRE_ORDER` (R21). -/
def framePixels : List Byte → List Pixel
  | u :: v :: w :: t =>
    ⟨wireByte [u, v, w] .red, wireByte [u, v, w] .green, wireByte [u, v, w] .blue⟩ :: framePixels t
  | _ => []

/-- What the chain has latched after a trace: 75 bytes since the last settle (or the start), then a settle,
set it; otherwise it keeps its last value (R21). `sent` holds the bytes since the last settle. -/
def latch (sent : List Byte) (shown : Option (List Pixel)) : List TxEvent → Option (List Pixel)
  | [] => shown
  | .byte v :: t => latch (sent ++ [v]) shown t
  | .settle :: t =>
    latch [] (if sent.length = Config.frameBytes then some (framePixels sent) else shown) t

/-- `DISPLAY`: `none` where it is unknown, that is before the first complete frame (R145), from an IoFailure
on (R21, R123), and after a reset inside the run (R144); log 14. -/
def State.display (s : State) : Option (List Pixel) :=
  if s.warm || s.fault.cause == .ioFailure then none else latch [] none s.trace

/-- `DISPLAY[i]` (R21). -/
def State.led (s : State) (i : Nat) : Option Pixel := s.display.bind fun ps => ps[i]?

/-- The eight bits of a byte in the order they leave, by `BIT_ORDER` (R95). -/
def wireBits (o : BitOrder) (v : Byte) : List Bool :=
  match o with
  | .msbFirst => [v.getLsbD 7, v.getLsbD 6, v.getLsbD 5, v.getLsbD 4, v.getLsbD 3, v.getLsbD 2,
      v.getLsbD 1, v.getLsbD 0]
  | .lsbFirst => [v.getLsbD 0, v.getLsbD 1, v.getLsbD 2, v.getLsbD 3, v.getLsbD 4, v.getLsbD 5,
      v.getLsbD 6, v.getLsbD 7]

/-- A burst as a stream of bits (R95). -/
def burstBits (o : BitOrder) (bytes : List Byte) : List Bool := bytes.flatMap (wireBits o)

end Sys2Proof.Machine
end

