-- ==== Sys2Proof/Safety.lean ====
section
/-! DEFINITION. The terms claims are stated in: when a command executes, what an answered command leaves,
what counts as a finished run, and the invariants. -/

namespace Sys2Proof.Safety

open Sys2Proof.Machine

/-- The block takes the next command and executes it: IDLE, nothing owed, not faulted (R64, R126). -/
def ready (s : State) : Bool := s.owed.isNone && s.txPhase == .idle && !s.faulted

/-- `s` after a command was taken and answered with `r`, and nothing else (R59, R64). -/
def answered (s : State) (r : Rsp) : State :=
  { s with cmds := s.cmds.tail, owed := none, rsp := some r, rsps := s.rsps ++ [r] }

/-- `s` after a command was taken and raised a fault (R121). -/
def raised (c : Cause) (info : Word) (s : State) : State :=
  { answered s (errRsp c) with fault := { cause := c, info := info } }

/-- No reset is asserted or in progress and nothing is owed: the state between two steps of a run at the
operation level. -/
def quiet (s : State) : Bool := !s.rst && !s.inReset && s.owed.isNone

/-- The collaborator's next `n` answers are all *accepted* (a premise on the neighbour, R156). -/
def accepting : Nat → Collaborator → Bool
  | 0, _ => true
  | n + 1, c => c.answer == .accepted && accepting n c.advance

/-- The collaborator after `n` answers. -/
def afterAnswers : Nat → Collaborator → Collaborator
  | 0, c => c
  | n + 1, c => afterAnswers n c.advance

/-- The settle timer fires, after `n` steps in which it still runs (duty (b) of R156, a premise on the timer). -/
def fires : Nat → SettleTimer → Bool
  | 0, c => c.answer == .done
  | n + 1, c => c.answer == .running && fires n c.advance

/-- The settle timer after `n` of its steps. -/
def afterSteps : Nat → SettleTimer → SettleTimer
  | 0, c => c
  | n + 1, c => afterSteps n c.advance

/-- `s` after a completed FLUSH from `s` whose settle fired after `n` steps (R83): the frame and a settle in the
trace, the response given. -/
def flushed (n : Nat) (s : State) : State :=
  { answered s (okRsp 0) with
    trace := s.trace ++ (frame s.mem).map .byte ++ [.settle], txPhase := .idle, txPos := 0,
    settleCount := 0, tx := afterAnswers 75 s.tx, timer := afterSteps (n + 1) s.timer }

/-- `n` steps of the machine. -/
abbrev run (n : Nat) (s : State) : Host.Outcome State Fault Refusal := Host.Core.run Sys2Proof.core n s

/-- A finished run: the host has no more commands (the driver always has), the block is idle and not faulted (R12). -/
def finished (s : State) : Bool :=
  s.cmds.isEmpty && !s.host.driver && s.txPhase == .idle && !s.faulted && s.owed.isNone

/-- `TXPHASE` and `TXPOS` agree (R28). -/
def phaseOk (s : State) : Bool :=
  match s.txPhase with
  | .idle => s.txPos == 0
  | .burst => decide (s.txPos.toNat ≤ 74)
  | .settle => s.txPos == 75

/-- The cursor is on the grid (R101). -/
def cursorOk (s : State) : Bool := coordInRange s.host.cursor.x s.host.cursor.y

/-- R28, with the memory's canonical form for the 25 Pixels. -/
def blockOk (s : State) : Bool := Memory.wf s.mem && phaseOk s

/-- `FAULT.info` says what `FAULT.cause` promises (R119): the word of a MAP or SET out of range, 0, the
number of the refused byte of a burst frozen there, a word that spells no operation. -/
def faultExplained (s : State) : Bool :=
  match s.fault.cause with
  | .none => s.fault.info == 0
  | .outOfRange =>
    match decode s.fault.info with
    | some (.map x y) => !coordInRange x y
    | some (.set index _ _ _) => !indexInRange index
    | _ => false
  | .resourceExhausted => s.fault.info == 0
  | .ioFailure => s.txPhase == .burst && s.fault.info == s.txPos.setWidth 32
  | .illegalCommand => (decode s.fault.info).isNone

/-- The two forms of a response (R59). -/
def rspLegal (r : Rsp) : Bool :=
  if rspErr r then decide (257 ≤ r.toNat) && decide (r.toNat ≤ 260) else decide (r.toNat ≤ 24)

/-- Every response given or owed has one of the two forms (R59). -/
def rspsLegal (s : State) : Bool := s.rsps.all rspLegal && s.owed.toList.all rspLegal

/-- Reads a trace as frames: how many bytes stand after the last settle, if no settle stands anywhere but
after exactly 75 bytes and no 76 bytes stand together (R91). -/
def frameScan : Nat → List TxEvent → Option Nat
  | n, [] => some n
  | n, .byte _ :: t => if n < Config.frameBytes then frameScan (n + 1) t else none
  | n, .settle :: t => if n = Config.frameBytes then frameScan 0 t else none

/-- The trace is a sequence of settled frames and then the `TXPOS` bytes of the burst in flight (R91). -/
def traceFramed (s : State) : Bool := frameScan 0 s.trace == some s.txPos.toNat

/-- The bytes after the last settle. -/
def openBytes (sent : List Byte) : List TxEvent → List Byte
  | [] => sent
  | .byte v :: t => openBytes (sent ++ [v]) t
  | .settle :: t => openBytes [] t

/-- The bytes of the burst in flight are the first `TXPOS` bytes of the PixelBuffer's frame (R84, R98). -/
def burstFaithful (s : State) : Bool := openBytes [] s.trace == (frame s.mem).take s.txPos.toNat

/-- All invariants together: R28, R91, R84, R101, R119, R59. -/
def inv (s : State) : Bool :=
  blockOk s && traceFramed s && burstFaithful s && cursorOk s && faultExplained s && rspsLegal s

/-- The parts of the state that are the block's own (R13), and the trace. -/
def sameBlock (s t : State) : Prop :=
  t.mem = s.mem ∧ t.txPhase = s.txPhase ∧ t.txPos = s.txPos ∧ t.fault = s.fault ∧ t.trace = s.trace

end Sys2Proof.Safety
end

