-- ==== Sys2Proof/Certificates/Slice0/Obligations.lean ====
section
/-! DEFINITION. The statements for the provers. Each docstring names the rule, or says that the statement is
derived. `.next t` of exec or step is always a full state, so what it does not name is unchanged. -/

open Sys2Proof Sys2Proof.Machine Sys2Proof.Safety

/-! ### Encoding -/

/-- R62, whole: the decoder's listing, with the fields cut out of the word as bit vectors; the encoder's four
formulas (the fields are disjoint, so `|` is `+`); and the two inverse laws. -/
def Obligations.DecoderAndEncoderAreInverse : Prop :=
  (∀ w : Word, decode w =
    if w.extractLsb' 29 3 = 1 ∧ w.extractLsb' 7 22 = 0 ∧ w.extractLsb' 3 1 = 0 then
      some (.map (w.extractLsb' 0 3).toNat (w.extractLsb' 4 3).toNat)
    else if w.extractLsb' 29 3 = 2 then
      some (.set (w.extractLsb' 24 5).toNat (w.extractLsb' 16 8) (w.extractLsb' 8 8) (w.extractLsb' 0 8))
    else if w.extractLsb' 29 3 = 3 ∧ w.extractLsb' 0 29 = 0 then some .clear
    else if w.extractLsb' 29 3 = 4 ∧ w.extractLsb' 0 29 = 0 then some .flush
    else none) ∧
  (∀ x y, x < 8 → y < 8 → (encode (.map x y)).toNat = 0x20000000 + y * 2 ^ 4 + x) ∧
  (∀ index r g b, index < 32 → (encode (.set index r g b)).toNat =
    0x40000000 + index * 2 ^ 24 + r.toNat * 2 ^ 16 + g.toNat * 2 ^ 8 + b.toNat) ∧
  encode .clear = 0x60000000#32 ∧ encode .flush = 0x80000000#32 ∧
  (∀ i : Instr, i.wellFormed = true → decode (encode i) = some i) ∧
  (∀ w i, decode w = some i → i.wellFormed = true ∧ encode i = w)

/-- Derived from the table of R55: a word matches a row (`w & mask == match`) exactly when it decodes to an
operation of that row's name, and no word matches two rows. -/
def Obligations.OpcodeRowsDecide : Prop :=
  (∀ w, ∀ row ∈ opRows, row.matchesWord w = true ↔
    ∃ i, decode w = some i ∧ i.mnemonic = row.mnemonic) ∧
  ∀ w, (opRows.filter (·.matchesWord w)).length ≤ 1

/-- R56: a word that matches no row of R55 is illegal; exactly which words these are; and an illegal word raises
IllegalCommand, with the word in `FAULT.info` (R124). -/
def Obligations.IllegalWordsRaiseIllegalCommand : Prop :=
  (∀ w, decode w = none ↔ ∀ row ∈ opRows, row.matchesWord w = false) ∧
  (∀ w : Word, decode w = none ↔
    (w.extractLsb' 29 3 = 0 ∨ w.extractLsb' 29 3 = 5 ∨ w.extractLsb' 29 3 = 6 ∨ w.extractLsb' 29 3 = 7) ∨
    (w.extractLsb' 29 3 = 1 ∧ (w.extractLsb' 7 22 ≠ 0 ∨ w.extractLsb' 3 1 ≠ 0)) ∨
    ((w.extractLsb' 29 3 = 3 ∨ w.extractLsb' 29 3 = 4) ∧ w.extractLsb' 0 29 ≠ 0)) ∧
  decode 0 = none ∧ decode (BitVec.allOnes 32) = none ∧
  ∀ s w rest, quiet s = true → ready s = true → s.cmds = w :: rest → decode w = none →
    step s = .next (raised .illegalCommand w s)

/-- Derived from the formats R51 to R53: words written out by hand decode to the operations they stand for,
and their neighbours with a reserved bit set do not. -/
def Obligations.HandWrittenWordsDecode : Prop :=
  decode 0b00100000000000000000000000010100#32 = some (.map 4 1) ∧
  decode 0b00100000000000000000000001110111#32 = some (.map 7 7) ∧
  decode 0b01000000000010100001010000011110#32 = some (.set 0 10 20 30) ∧
  decode 0b01011001000000000000000000000000#32 = some (.set 25 0 0 0) ∧
  decode 0b01100000000000000000000000000000#32 = some .clear ∧
  decode 0b10000000000000000000000000000000#32 = some .flush ∧
  decode 0b00100000000000000000000000001000#32 = none ∧
  decode 0b00110000000000000000000000000000#32 = none ∧
  decode 0b01100000000000000000000000000001#32 = none ∧
  decode 0b10010000000000000000000000000000#32 = none

/-! ### A step runs the decoded command -/

/-- Derived from R62 and R64: where the block takes commands and the word on offer decodes, a step is exec of
that instruction at that very state (exec itself takes the word off the channel); and a word placed by
`withFetchWord` is the one the next step runs. -/
def Obligations.StepRunsTheDecodedCommand : Prop :=
  (∀ s w rest i, quiet s = true → s.cmdReady = true → s.cmds = w :: rest → decode w = some i →
    step s = exec i s) ∧
  (∀ s w i, quiet s = true → s.cmdReady = true → decodeTableWord 32 w = some i →
    step (s.withFetchWord 32 w) = exec i (s.withFetchWord 32 w))

/-- Derived from R64 and R73; that exec leaves a waiting command on offer is the model's form of it (log 8):
in a block that is not ready no command has any effect, and a burst or a settle that is not faulted is not
ready. -/
def Obligations.BusyBlockKeepsTheCommandWaiting : Prop :=
  (∀ i s, s.cmdReady = false → exec i s = .next s) ∧
  (∀ s : State, s.txPhase ≠ .idle → s.faulted = false → s.cmdReady = false)

/-- Derived from R57: no state and no word stops the machine; every instruction answers a next state everywhere,
and every step does. That a command waiting in a busy block is a next state of exec is the model's reading
(log 8, DEDUCED), and that a stuck block, which by R94 and R98 has no step, takes a step that changes nothing
but its neighbour's data is the model's choice (log 17, DESIGN CHOICE). -/
def Obligations.NothingStopsTheMachine : Prop :=
  (∀ i s, ∃ t, exec i s = .next t) ∧ (∀ s, ∃ t, step s = .next t)

/-! ### MAP -/

/-- R67: MAP in a block that takes it answers the index, or raises OutOfRange (R68), and changes nothing else;
its word is `0x20000000 | y<<4 | x`; the document's example `index(4,1) = 5`. -/
def Obligations.MapAnswersTheIndex : Prop :=
  (∀ x y s, (Instr.map x y).wellFormed = true → ready s = true →
    exec (.map x y) s = .next (
      if x > 4 ∨ y > 4 then raised .outOfRange (encode (.map x y)) s
      else answered s (okRsp (if y % 2 = 0 then y * 5 + x else y * 5 + (4 - x))))) ∧
  (∀ x y, (Instr.map x y).wellFormed = true →
    encode (.map x y) = 0x20000000#32 ||| (BitVec.ofNat 32 y <<< 4) ||| BitVec.ofNat 32 x) ∧
  mapIndex 4 1 = 5

/-- R68: MAP out of range raises OutOfRange with the command word, answers `0x101` and computes no index;
nothing else changes. -/
def Obligations.MapOutOfRangeRaises : Prop :=
  ∀ x y s, (Instr.map x y).wellFormed = true → (5 ≤ x ∨ 5 ≤ y) → ready s = true →
    exec (.map x y) s = .next
      { s with
        cmds := s.cmds.tail, fault := { cause := .outOfRange, info := encode (.map x y) },
        rsp := some 0x101#9, rsps := s.rsps ++ [0x101#9] }

/-- R70: on the grid the mapping is a bijection onto 0..24, with the stated inverse and its list. -/
def Obligations.MappingIsABijection : Prop :=
  (∀ x < 5, ∀ y < 5, mapIndex x y < 25 ∧ mapInverse (mapIndex x y) = (x, y)) ∧
  (∀ i < 25, (mapInverse i).1 < 5 ∧ (mapInverse i).2 < 5 ∧
    mapIndex (mapInverse i).1 (mapInverse i).2 = i ∧ (mapInverse i).2 = i / 5 ∧
    (mapInverse i).1 = if i / 5 % 2 = 0 then i % 5 else 4 - i % 5) ∧
  (List.range 25).map mapInverse =
    [(0, 0), (1, 0), (2, 0), (3, 0), (4, 0), (4, 1), (3, 1), (2, 1), (1, 1), (0, 1), (0, 2), (1, 2),
     (2, 2), (3, 2), (4, 2), (4, 3), (3, 3), (2, 3), (1, 3), (0, 3), (0, 4), (1, 4), (2, 4), (3, 4), (4, 4)]

/-- R71: along an even row the index rises by 1, along an odd row it falls by 1, at the four row ends it goes on
in the same column, and consecutive indices are grid neighbours. -/
def Obligations.SerpentineProperty : Prop :=
  (∀ x < 4, ∀ y < 5, y % 2 = 0 → mapIndex (x + 1) y = mapIndex x y + 1) ∧
  (∀ x < 4, ∀ y < 5, y % 2 = 1 → mapIndex (x + 1) y + 1 = mapIndex x y) ∧
  mapIndex 4 0 = 4 ∧ mapIndex 4 1 = 5 ∧ mapIndex 0 1 = 9 ∧ mapIndex 0 2 = 10 ∧
  mapIndex 4 2 = 14 ∧ mapIndex 4 3 = 15 ∧ mapIndex 0 3 = 19 ∧ mapIndex 0 4 = 20 ∧
  (∀ y < 4, (mapInverse (5 * y + 4)).1 = (mapInverse (5 * (y + 1))).1) ∧
  (∀ i < 24,
    ((mapInverse (i + 1)).2 = (mapInverse i).2 ∧
      ((mapInverse (i + 1)).1 = (mapInverse i).1 + 1 ∨ (mapInverse i).1 = (mapInverse (i + 1)).1 + 1)) ∨
    ((mapInverse (i + 1)).1 = (mapInverse i).1 ∧ (mapInverse (i + 1)).2 = (mapInverse i).2 + 1))

/-- R72: the five row ranges, and the five indices of each column. -/
def Obligations.RowsAndColumns : Prop :=
  (∀ y < 5, ∀ i < 25, (mapInverse i).2 = y ↔ 5 * y ≤ i ∧ i ≤ 5 * y + 4) ∧
  (∀ x < 5, (List.range 5).map (mapIndex x) = [x, 9 - x, 10 + x, 19 - x, 20 + x])

/-- Derived from R74: for a grid of any width the general form keeps each row in its own block of
indices and is injective, and at width 5 it is MAP's formula. -/
def Obligations.WideMappingIsInjective : Prop :=
  (∀ w x y, x < w → y * w ≤ mapIndexWide w x y ∧ mapIndexWide w x y < (y + 1) * w) ∧
  (∀ w x y x' y', x < w → x' < w → mapIndexWide w x y = mapIndexWide w x' y' → x = x' ∧ y = y') ∧
  (∀ x y, mapIndexWide 5 x y = mapIndex x y)

/-! ### SET and CLEAR -/

/-- R75 and R76: SET in a block that takes it writes the one Pixel, all three channels as given, and no other
byte of the buffer; out of range it raises OutOfRange with the command word and writes nothing. Nothing else
changes but the command taken and the response. The memory is in its canonical form, an invariant of the
model (StepKeepsTheBlockInvariant). -/
def Obligations.SetWritesOnePixel : Prop :=
  (∀ index r g b s, index ≤ 24 → ready s = true → Memory.wf s.mem = true →
    ∃ m, exec (.set index r g b) s = .next { answered s (okRsp 0) with mem := m } ∧
      Memory.pixel m index = ⟨r, g, b⟩ ∧
      (∀ j, j ≠ index → Memory.pixel m j = Memory.pixel s.mem j) ∧
      (∀ a, a / 3 ≠ index → Memory.read m a = Memory.read s.mem a)) ∧
  (∀ index r g b s, 24 < index → index < 32 → ready s = true →
    exec (.set index r g b) s = .next
      { s with
        cmds := s.cmds.tail, fault := { cause := .outOfRange, info := encode (.set index r g b) },
        rsp := some 0x101#9, rsps := s.rsps ++ [0x101#9] }) ∧
  (∀ index r g b, index < 32 → encode (.set index r g b) =
    0x40000000#32 ||| (BitVec.ofNat 32 index <<< 24) ||| (r.setWidth 32 <<< 16) |||
      (g.setWidth 32 <<< 8) ||| b.setWidth 32) ∧
  encode (.set 0 10 20 30) = 0x400A141E#32

/-- R78: CLEAR in a block that takes it makes every Pixel black in one step and changes nothing else but the
command taken and the response; its word is `0x60000000`. -/
def Obligations.ClearBlackensEveryPixel : Prop :=
  (∀ s, ready s = true → Memory.wf s.mem = true →
    ∃ m, exec .clear s = .next { answered s (okRsp 0) with mem := m } ∧
      (∀ i < 25, Memory.pixel m i = ⟨0, 0, 0⟩) ∧
      (∀ a, 75 ≤ a → Memory.read m a = Memory.read s.mem a)) ∧
  encode .clear = 0x60000000#32

/-- R80: CLEAR then SET leaves exactly one non-zero Pixel if the colour is not black, and none if it is. -/
def Obligations.ClearThenSetLightsOnePixel : Prop :=
  ∀ i r g b s, i ≤ 24 → ready s = true → Memory.wf s.mem = true →
    ∃ t u, exec .clear s = .next t ∧ exec (.set i r g b) t = .next u ∧
      Memory.pixel u.mem i = ⟨r, g, b⟩ ∧
      (∀ j < 25, j ≠ i → Memory.pixel u.mem j = ⟨0, 0, 0⟩) ∧
      ((r, g, b) ≠ (0, 0, 0) → ∀ j < 25, Memory.pixel u.mem j ≠ ⟨0, 0, 0⟩ ↔ j = i) ∧
      ((r, g, b) = (0, 0, 0) → ∀ j < 25, Memory.pixel u.mem j = ⟨0, 0, 0⟩)

/-- Derived from R38: the same SET twice, or CLEAR twice, leaves the same buffer as once. -/
def Obligations.WritesAreIdempotent : Prop :=
  ∀ i s, (i = .clear ∨ ∃ index r g b, i = .set index r g b) → ready s = true → Memory.wf s.mem = true →
    ∃ t u, exec i s = .next t ∧ exec i t = .next u ∧ u.mem = t.mem

/-- Derived from R75 and R36: SETs of two different Pixels leave the same buffer in either order. -/
def Obligations.SetsOfDistinctPixelsCommute : Prop :=
  ∀ i j r g b r' g' b' s, i ≤ 24 → j ≤ 24 → i ≠ j → ready s = true → Memory.wf s.mem = true →
    ∃ t u t' u', exec (.set i r g b) s = .next t ∧ exec (.set j r' g' b') t = .next u ∧
      exec (.set j r' g' b') s = .next t' ∧ exec (.set i r g b) t' = .next u' ∧ u.mem = u'.mem

/-- Derived from R15: with no reset, a step that changes the PixelBuffer is a step that takes a CLEAR or a SET
in range. -/
def Obligations.OnlySetAndClearWriteThePixelBuffer : Prop :=
  ∀ s t, step s = .next t → s.rst = false → t.mem ≠ s.mem →
    ∃ w i, s.mover = .command w ∧ decode w = some i ∧ s.faulted = false ∧
      (i = .clear ∨ ∃ index r g b, i = .set index r g b ∧ index ≤ 24)

/-! ### FLUSH, the collaborator, the settle timer -/

/-- R86: FLUSH in a block that takes it starts a burst at byte 0, which the block then offers; nothing else
changes but the command taken, and no response is given yet. -/
def Obligations.FlushStartsABurst : Prop :=
  ∀ s, ready s = true →
    exec .flush s = .next { s with cmds := s.cmds.tail, txPhase := .burst, txPos := 0 } ∧
    State.offered { s with cmds := s.cmds.tail, txPhase := .burst, txPos := 0 } = some (byteAt s.mem 0)

/-- R87: in a burst the block offers byte `k = TXPOS`; accepted, it is appended to the trace, `TXPOS` becomes
`k + 1`, and after byte 74 the phase is SETTLE, else byte `k + 1` is on offer; nothing else changes but the
collaborator's own list (and the word-level settle count, which starts at 0). -/
def Obligations.AcceptedByteAdvancesTheBurst : Prop :=
  ∀ s, quiet s = true → s.txPhase = .burst → s.faulted = false → s.txPos.toNat ≤ 74 →
    s.tx.answer = .accepted →
    s.offered = some (byteAt s.mem s.txPos.toNat) ∧
    step s = .next
      { s with
        tx := s.tx.advance, trace := s.trace ++ [.byte (byteAt s.mem s.txPos.toNat)],
        txPos := BitVec.ofNat 7 (s.txPos.toNat + 1), settleCount := 0,
        txPhase := if s.txPos.toNat + 1 = 75 then .settle else .burst } ∧
    ∀ t, step s = .next t →
      t.offered = if s.txPos.toNat + 1 = 75 then none else some (byteAt s.mem (s.txPos.toNat + 1))

/-- Derived from R88: a refused byte raises IoFailure with the byte's number where `TX_FALLIBLE` is true: phase,
position and trace stay, the response is `0x103`, no byte is on offer any more, and with no reset no settle and
no byte follows, however many steps come. Where it is false there is no such step: only the collaborator's own list
moves on (the model's choice, log 5, DESIGN CHOICE), and no step makes the fault an IoFailure. -/
def Obligations.RefusedByteRaisesIoFailure : Prop :=
  (∀ s, quiet s = true → s.txPhase = .burst → s.faulted = false → s.tx.answer = .failed →
    (s.params.txFallible = true →
      ∃ t, step s = .next t ∧
        t = { s with
          tx := s.tx.advance, fault := { cause := .ioFailure, info := s.txPos.setWidth 32 },
          rsp := some 0x103#9, rsps := s.rsps ++ [0x103#9] } ∧
        t.offered = none ∧ ∀ n u, run n t = .next u → u.trace = s.trace) ∧
    (s.params.txFallible = false → step s = .next { s with tx := s.tx.advance })) ∧
  (∀ s t, s.params.txFallible = false → step s = .next t → t.fault.cause = .ioFailure →
    s.fault.cause = .ioFailure)

/-- Derived from R89 and R92, at the operation level: the settle's end appends `Settle`, returns to IDLE with
`TXPOS` 0 and gives the FLUSH's response `(ok, 0)`; nothing else changes but the timer's own list. Until the
timer fires, a step changes that list alone (the model's form of a timer, log 20). -/
def Obligations.SettleDoneCompletesTheFlush : Prop :=
  ∀ s, quiet s = true → s.txPhase = .settle → s.faulted = false →
    (s.timer.answer = .done →
      step s = .next
        { s with
          timer := s.timer.advance, trace := s.trace ++ [.settle], txPhase := .idle, txPos := 0,
          settleCount := 0, rsp := some 0#9, rsps := s.rsps ++ [0#9] }) ∧
    (s.timer.answer = .running → step s = .next { s with timer := s.timer.advance })

/-- Derived from R94: with a collaborator that never answers, a burst stands still for ever: no response, no
fault, no timeout. -/
def Obligations.UnansweredBurstIsStuckForever : Prop :=
  ∀ s n, quiet s = true → s.txPhase = .burst → s.faulted = false →
    s.tx.answers = [] → s.tx.rest = .silent → run n s = .next s

/-- Derived from R94: only a reset lifts the stuck burst at once. -/
def Obligations.ResetLiftsAStuckBurst : Prop :=
  ∀ s, s.rst = true → s.tx.available = true →
    ∃ t, step s = .next t ∧ t.txPhase = .idle ∧ t.faulted = false ∧ t.owed = none

/-- R96: a frame is 75 bytes and nothing else; byte `k` is the green, red or blue channel
of Pixel `k div 3`, unchanged. -/
def Obligations.FrameLayout : Prop :=
  ∀ m, (frame m).length = 75 ∧
    (∀ k < 75, (frame m)[k]? = some (
      if k % 3 = 0 then (Memory.pixel m (k / 3)).g
      else if k % 3 = 1 then (Memory.pixel m (k / 3)).r
      else (Memory.pixel m (k / 3)).b)) ∧
    (∀ i < 25, (frame m)[3 * i]? = some (Memory.pixel m i).g ∧
      (frame m)[3 * i + 1]? = some (Memory.pixel m i).r ∧
      (frame m)[3 * i + 2]? = some (Memory.pixel m i).b)

/-- Derived from R83, R98 and R156: FLUSH completes. From every state that takes it, with a collaborator that
accepts 75 bytes and a settle timer that fires after `n` steps, exec starts it and 76 + `n` more steps (75
byte acceptances, `n` steps of the running timer, and the settle's end) end in the state of R83: the whole
frame in order and one settle appended, the phase IDLE, the response `(ok, 0)`. Both duties of R156 are
premises. -/
def Obligations.FlushRunsToCompletion : Prop :=
  ∀ s n, quiet s = true → ready s = true → accepting 75 s.tx = true → fires n s.timer = true →
    ∃ t, exec .flush s = .next t ∧ run (76 + n) t = .next (flushed n s)

/-- Derived from R88 and R98: a FLUSH whose byte `k` is refused, after `k` accepted ones, ends with IoFailure:
`k` bytes appended, no settle, frozen in BURST at `k`, response `0x103`. -/
def Obligations.FlushFaultsAtTheRefusedByte : Prop :=
  ∀ s k, quiet s = true → ready s = true → s.params.txFallible = true → k ≤ 74 →
    accepting k s.tx = true → (afterAnswers k s.tx).answer = .failed →
    ∃ t u, exec .flush s = .next t ∧ run (k + 1) t = .next u ∧
      u.trace = s.trace ++ ((frame s.mem).take k).map .byte ∧ u.txPhase = .burst ∧ u.txPos.toNat = k ∧
      u.fault = { cause := .ioFailure, info := BitVec.ofNat 32 k } ∧ u.mem = s.mem ∧
      u.rsps = s.rsps ++ [0x103#9] ∧ u.display = none

/-- Derived from R97: two FLUSHes on offer one after the other append the same frame and a settle twice, and the
display after the second is the display after the first. (R97 also allows a MAP between them; that is
MapAnswersTheIndex with FlushRunsToCompletion.) -/
def Obligations.FlushTwiceSendsTheSameFrameTwice : Prop :=
  ∀ s rest m n, quiet s = true → ready s = true → s.cmds = encode .flush :: encode .flush :: rest →
    accepting 150 s.tx = true → fires m s.timer = true → fires n (afterSteps (m + 1) s.timer) = true →
    ∃ t u, run (77 + m) s = .next t ∧ run (77 + n) t = .next u ∧
      u.trace = s.trace ++ (frame s.mem).map .byte ++ [.settle] ++ (frame s.mem).map .byte ++ [.settle] ∧
      (inv s = true → u.display = t.display)

/-- R90: no step of a FLUSH writes the PixelBuffer: not its start, not a byte accepted or refused, not the
settle. -/
def Obligations.FlushLeavesThePixelBuffer : Prop :=
  (∀ s t, exec .flush s = .next t → t.mem = s.mem) ∧
  (∀ s t, step s = .next t → s.mover = .collaborator ∨ s.mover = .timer → t.mem = s.mem)

/-- Derived from R17: with no reset, a step that changes `TXPHASE` starts a FLUSH or is a step of its
collaborator or its timer. -/
def Obligations.OnlyFlushChangesThePhase : Prop :=
  ∀ s t, step s = .next t → s.rst = false → t.txPhase ≠ s.txPhase →
    (∃ w, s.mover = .command w ∧ decode w = some .flush ∧ s.faulted = false) ∨
    s.mover = .collaborator ∨ s.mover = .timer

/-! ### The display -/

/-- Derived from R99: after a completed FLUSH, in a run with no reset inside it, every LED shows its Pixel. The
premises on the trace are invariants of the model (StepKeepsTheTraceFramed, StepKeepsTheBurstFaithful).
The LEDs are those of R21, computed from the trace: premise U9, that the
collaborator sends each accepted byte promptly and does not pause a burst for as long as the chain's latch
time (log 14, DESIGN CHOICE). -/
def Obligations.DisplayIsTheBufferAfterAFlush : Prop :=
  ∀ s t n, quiet s = true → ready s = true → inv s = true → s.warm = false → accepting 75 s.tx = true →
    fires n s.timer = true → exec .flush s = .next t →
    ∃ u, run (76 + n) t = .next u ∧ ∀ i < 25, u.led i = some (Memory.pixel u.mem i)

/-- Derived from R148 and R77: the display changes only when a settle ends, when a burst fails, or by a reset;
no SET, CLEAR or MAP and no byte of a burst changes it. -/
def Obligations.DisplayChangesOnlyWhenASettleEnds : Prop :=
  ∀ s t, step s = .next t → s.rst = false → s.inReset = false → s.settling = false →
    (t.fault.cause = .ioFailure → s.fault.cause = .ioFailure) → t.display = s.display

/-! ### Faults -/

/-- R126: a faulted block answers every command with `(err, FAULT.cause)`, legal or not, and does not execute it;
no step but a reset changes the block, its fault register or the trace, and no byte is offered. -/
def Obligations.FaultedBlockIsHalted : Prop :=
  (∀ i s, s.faulted = true → s.owed = none →
    exec i s = .next (answered s (errRsp s.fault.cause))) ∧
  (∀ w s, s.faulted = true → s.owed = none →
    execIllegal w s = .next (answered s (errRsp s.fault.cause))) ∧
  (∀ s t, s.faulted = true → s.rst = false → s.inReset = false → step s = .next t → sameBlock s t) ∧
  (∀ s : State, s.faulted = true → s.offered = none ∧ s.settling = false)

/-- Derived from R125: what a command raises, in the order decode, operand range, execution; a MAP word with a
reserved bit and a row out of range is IllegalCommand. -/
def Obligations.FaultsFollowTheOrderOfChecks : Prop :=
  (∀ s w rest, quiet s = true → ready s = true → s.cmds = w :: rest →
    ∃ t, step s = .next t ∧
      (t.fault.cause = .illegalCommand ↔ decode w = none) ∧
      (t.fault.cause = .outOfRange ↔
        (∃ x y, decode w = some (.map x y) ∧ (4 < x ∨ 4 < y)) ∨
        (∃ index r g b, decode w = some (.set index r g b) ∧ 24 < index)) ∧
      t.fault.cause ≠ .resourceExhausted ∧ t.fault.cause ≠ .ioFailure) ∧
  decode 0x20000078#32 = none

/-- Derived from R119 and R126: the fault register always explains itself (the word out of range, the number of
the refused byte, the word that spells no operation, 0), and every step keeps it so. -/
def Obligations.StepKeepsTheFaultExplained : Prop :=
  ∀ s t, faultExplained s = true → step s = .next t → faultExplained t = true

/-- Derived from R122 and R143: without a transmitter the block leaves reset faulted with cause 2 and info 0 and
without a response, and its first command, whatever it is, is answered `0x102`. -/
def Obligations.NoTransmitterIsResourceExhausted : Prop :=
  (∀ p, (State.launch p false).fault = { cause := .resourceExhausted, info := 0 } ∧
    (State.launch p false).rsps = []) ∧
  (∀ p w, ∃ t, step ((State.launch p false).place w) = .next t ∧ t.rsps = [0x102#9] ∧
    t.fault = { cause := .resourceExhausted, info := 0 } ∧ t.mem = [])

/-! ### Responses -/

/-- Derived from R59: every response has one of the two forms, `err` 0 with an index 0..24, or `err` 1 with a
cause 1..4 and the bits between them 0; every step keeps it so. -/
def Obligations.StepKeepsTheResponsesLegal : Prop :=
  ∀ s t, rspsLegal s = true → step s = .next t → rspsLegal t = true

/-! ### Reset and invariants -/

/-- R27, the whole table, for either answer of the initialisation check and all parameters. -/
def Obligations.ResetState : Prop :=
  ∀ p available,
    (∀ i < 25, Memory.pixel (State.launch p available).mem i = ⟨0, 0, 0⟩) ∧
    (State.launch p available).txPhase = .idle ∧ (State.launch p available).txPos = 0 ∧
    (State.launch p available).fault.cause.code = (if available then 0 else 2) ∧
    (State.launch p available).fault.info = 0 ∧ (State.launch p available).trace = [] ∧
    (∀ i, (State.launch p available).led i = none) ∧
    (State.launch p available).host.cursor = ⟨0, 0⟩ ∧
    (State.launch p available).busy = false ∧ (State.launch p available).faulted = !available ∧
    (State.launch p available).faultCause = (if available then 0 else 2)

/-- Derived from R142 and R144: a reset inside a run returns the block to the values of R27, whatever state it
was in; from then on the display is unknown, whatever follows. That the host's cursor is `(0, 0)` as well, in a
reset inside a run, is the model's choice (log 11, DESIGN CHOICE): R144 speaks of the block's state. -/
def Obligations.WarmResetForgetsEverything : Prop :=
  (∀ s, s.rst = true → s.inReset = false →
    ∃ t, step s = .next t ∧ t.mem = [] ∧ t.txPhase = .idle ∧ t.txPos = 0 ∧ t.trace = [] ∧ t.owed = none ∧
      t.fault = { cause := if s.tx.available then .none else .resourceExhausted, info := 0 } ∧
      t.host.cursor = ⟨0, 0⟩ ∧ t.warm = true) ∧
  (∀ s t, s.warm = true → step s = .next t → t.warm = true ∧ t.display = none)

/-- The invariants hold right after reset, for all parameters and either answer of the check (the first half of
R28). -/
def Obligations.ResetMeetsTheInvariants : Prop :=
  inv State.reset = true ∧ ∀ p available, inv (State.launch p available) = true

/-- R28: the phase and the position agree, the buffer has 25 Pixels, their channels are 0..255 and the cause is 0..4
(the canonical form of the memory stands beside them): true at reset, and every step keeps it, from every state in
which it holds.
A block faulted by IoFailure stands in BURST at the failed byte, in every state in which the fault register
explains itself (an invariant of its own, StepKeepsTheFaultExplained). -/
def Obligations.StepKeepsTheBlockInvariant : Prop :=
  (∀ p available, blockOk (State.launch p available) = true) ∧
  (∀ s t, blockOk s = true → step s = .next t → blockOk t = true) ∧
  (∀ s, blockOk s = true →
    (s.txPhase = .idle → s.txPos = 0) ∧ (s.txPhase = .burst → s.txPos.toNat ≤ 74) ∧
    (s.txPhase = .settle → s.txPos.toNat = 75)) ∧
  (∀ s, faultExplained s = true → s.fault.cause = .ioFailure →
    s.txPhase = .burst ∧ s.fault.info = s.txPos.setWidth 32) ∧
  (∀ s : State, (memRead s.mem 0 25).length = 25 ∧ s.faultCause.toNat ≤ 4 ∧
    ∀ p ∈ memRead s.mem 0 25, ∀ c, Config.chMin ≤ (p.channel c).toNat ∧ (p.channel c).toNat ≤ Config.chMax)

/-- Derived from R91 and R92: in every trace the 75 bytes of a frame stand together, each frame is followed by a
settle, and no two bursts are adjacent without one; every step keeps it so. -/
def Obligations.StepKeepsTheTraceFramed : Prop :=
  ∀ s t, blockOk s = true → traceFramed s = true → step s = .next t → traceFramed t = true

/-- Derived from R44, R84 and R98: the bytes of the burst in flight are the first `TXPOS` bytes of the frame of
the PixelBuffer as it is; every step keeps it so. -/
def Obligations.StepKeepsTheBurstFaithful : Prop :=
  ∀ s t, blockOk s = true → burstFaithful s = true → step s = .next t → burstFaithful t = true

/-- Derived from R101: the cursor is always on the grid; and it changes only by a reset, at the driver's entry
point, or by a pressed sample. -/
def Obligations.CursorStaysOnTheGrid : Prop :=
  (∀ p available, cursorOk (State.launch p available) = true) ∧
  (∀ s t, cursorOk s = true → step s = .next t → cursorOk t = true) ∧
  (∀ s t, step s = .next t → s.rst = false → t.host.cursor ≠ s.host.cursor →
    s.mover = .host ∧
      ((∃ rest, s.host.todo = .boot :: rest) ∨ ∃ button rest, s.host.todo = .sample button :: rest ∧
        Line.level (HostState.line s.host button) = false))

/-- Derived from R8: no step changes the launch parameters. -/
def Obligations.ParametersNeverChange : Prop :=
  ∀ s t, step s = .next t → t.params = s.params

/-! ### The host -/

/-- R102: the two moves, each leaving the other coordinate, with the wrap-around; and no others: with no reset
and but for the driver's entry point, a step that changes the cursor makes one of them. -/
def Obligations.TheTwoMoves : Prop :=
  (∀ c : Cursor, c.moveX = ⟨(c.x + 1) % 5, c.y⟩ ∧ c.moveY = ⟨c.x, (c.y + 1) % 5⟩) ∧
  (∀ y, Cursor.moveX ⟨4, y⟩ = ⟨0, y⟩) ∧ (∀ x, Cursor.moveY ⟨x, 4⟩ = ⟨x, 0⟩) ∧
  (∀ s t, step s = .next t → s.rst = false → s.host.todo.head? ≠ some .boot →
    t.host.cursor = s.host.cursor ∨ t.host.cursor = s.host.cursor.moveX ∨
    t.host.cursor = s.host.cursor.moveY)

/-- Derived from R105: from every cursor to every other take `(x' - x) mod 5` moves right and `(y' - y) mod 5`
moves down, and the order of the moves does not matter. -/
def Obligations.EveryCursorReachesEveryOther : Prop :=
  (∀ x < 5, ∀ y < 5, ∀ x' < 5, ∀ y' < 5,
    Cursor.moveX^[(x' + 5 - x) % 5] (Cursor.moveY^[(y' + 5 - y) % 5] ⟨x, y⟩) = ⟨x', y'⟩) ∧
  (∀ m n c, Cursor.moveX^[m] (Cursor.moveY^[n] c) = Cursor.moveY^[n] (Cursor.moveX^[m] c))

/-- Derived from R107 and R109: a pressed sample moves the cursor along its button's axis and is followed by the
redraw and the dead-time before anything else, the other button's sample too; a sample not pressed does
nothing. -/
def Obligations.SamplesMoveAndRedraw : Prop :=
  ∀ s button rest, quiet s = true → s.cmdReady = true → s.cmds = [] → s.host.driver = true →
    s.host.todo = .sample button :: rest →
    ∃ t, step s = .next t ∧ sameBlock s t ∧ t.cmds = [] ∧
      (Line.level (HostState.line s.host button) = true →
        t.host.cursor = s.host.cursor ∧ t.host.todo = rest) ∧
      (Line.level (HostState.line s.host button) = false →
        t.host.cursor = Cursor.move s.host.cursor (buttonAxis s.params.axisA button) ∧
        t.host.todo = .clear :: .map :: .set :: .flush :: .wait s.params.tDeadMs :: rest)

/-- Derived from R61 and R103: the driver's redraw, run to its end from any state that takes commands, with a
collaborator that accepts the frame and a settle timer that fires after `n` steps. The 84 + `n` steps are
four offers, CLEAR, MAP, SET, and the 77 + `n` of FLUSH. The cursor's Pixel is white and all others black,
the frame and a settle are appended, the responses are 0, the index, 0, 0, and (in a run with no reset inside
it) exactly that LED is lit. The LEDs are those of R21, computed from the trace: premise U9, that the
collaborator sends each accepted byte promptly and does not pause a burst for as long as the chain's latch
time (log 14, DESIGN CHOICE). -/
def Obligations.RedrawLightsTheCursor : Prop :=
  ∀ s rest n, quiet s = true → ready s = true → s.cmds = [] → s.host.driver = true →
    s.host.todo = redraw ++ rest → inv s = true → accepting 75 s.tx = true → fires n s.timer = true →
    ∃ t, run (84 + n) s = .next t ∧ t.host = { s.host with todo := rest } ∧ t.cmds = [] ∧ ready t = true ∧
      (∀ j < 25, Memory.pixel t.mem j =
        if j = mapIndex s.host.cursor.x s.host.cursor.y then ⟨255, 255, 255⟩ else ⟨0, 0, 0⟩) ∧
      t.trace = s.trace ++ (frame t.mem).map .byte ++ [.settle] ∧
      t.rsps = s.rsps ++
        [okRsp 0, okRsp (mapIndex s.host.cursor.x s.host.cursor.y), okRsp 0, okRsp 0] ∧
      (s.warm = false → ∀ j < 25, t.led j = some (
        if j = mapIndex s.host.cursor.x s.host.cursor.y then ⟨255, 255, 255⟩ else ⟨0, 0, 0⟩))

/-- Derived from R104: the redraw is atomic for an observer of the LEDs: before its last step the display is what it
was, with its last step it is the new frame. The LEDs are those of R21, computed from the trace: premise U9, that the
collaborator sends each accepted byte promptly and does not pause a burst for as long as the chain's latch
time (log 14, DESIGN CHOICE). -/
def Obligations.RedrawIsAtomicForTheObserver : Prop :=
  ∀ s rest n, quiet s = true → ready s = true → s.cmds = [] → s.host.driver = true →
    s.host.todo = redraw ++ rest → inv s = true → s.warm = false → accepting 75 s.tx = true →
    fires n s.timer = true →
    (∀ k ≤ 83 + n, ∃ u, run k s = .next u ∧ u.display = s.display) ∧
    ∃ t, run (84 + n) s = .next t ∧ t.display = some ((List.range 25).map (Memory.pixel t.mem))

/-- Derived from R146 and R113: from reset, with a transmitter (the model's choice for the reset state, log 3) and
with the collaborator and the settle timer of the reset state (one accepts every byte, the other fires at once:
the model's choices, logs 4 and 20), the boot ends with one white LED at physical index 0 and the rest dark,
and the driver enters its main loop. The LEDs are those of R21, computed from the trace: premise U9, that the
collaborator sends each accepted byte promptly and does not pause a burst for as long as the chain's latch
time (log 14, DESIGN CHOICE). -/
def Obligations.BootLightsTheOrigin : Prop :=
  ∀ p, ∃ t, run 85 (State.launch p true) = .next t ∧ t.host.driver = true ∧ t.host.todo = [] ∧
    t.host.cursor = ⟨0, 0⟩ ∧ ready t = true ∧
    ∀ j < 25, t.led j = some (if j = 0 then ⟨255, 255, 255⟩ else ⟨0, 0, 0⟩)

/-- Derived from R110: the driver never ends. No step takes the driver away; with nothing left to do it begins the
next polling cycle, whatever the last response was; after a reset it starts at its entry point, which draws
the cursor at `(0, 0)`; and with an error response in hand it still issues its commands, but for the SET that
has no index (R61). What it does without the index, to go on, is the model's choice (log 10, DESIGN CHOICE),
and so is where a reset inside a run leaves it (log 11, DESIGN CHOICE). -/
def Obligations.DriverNeverEnds : Prop :=
  (∀ s t, step s = .next t → t.host.driver = s.host.driver) ∧
  (∀ s, quiet s = true → s.cmdReady = true → s.cmds = [] → s.host.driver = true → s.host.todo = [] →
    step s = .next
      { s with host := { s.host with todo := [.sample .a, .sample .b, .wait s.params.tIdleMs] } }) ∧
  (∀ s t, step s = .next t → s.rst = true → s.host.driver = true → t.host.todo = [.boot] ∧ t.cmds = []) ∧
  (∀ s rest, quiet s = true → s.cmdReady = true → s.cmds = [] → s.host.driver = true →
    (s.host.todo = .boot :: rest → step s = .next { s with
      host := { s.host with cursor := ⟨0, 0⟩, todo := [.clear, .map, .set, .flush] ++ rest } }) ∧
    (s.host.todo = .clear :: rest → step s = .next { s with
      cmds := [encode .clear], host := { s.host with todo := rest } }) ∧
    (s.host.todo = .map :: rest → step s = .next { s with
      cmds := [encode (.map s.host.cursor.x s.host.cursor.y)], host := { s.host with todo := rest } }) ∧
    (s.host.todo = .flush :: rest → step s = .next { s with
      cmds := [encode .flush], host := { s.host with todo := rest } }) ∧
    (∀ r, s.host.todo = .set :: rest → s.rsp = some r → step s = .next (
      if rspErr r then { s with host := { s.host with todo := rest } }
      else { s with
        cmds := [encode (.set (rspValue r) 255 255 255)], host := { s.host with todo := rest } })))

/-- Derived from R113: the lit index for five moves right from (0,0), and for a move down from (4,0). -/
def Obligations.WalkAlongTheFirstRow : Prop :=
  let lit := fun c : Cursor => mapIndex c.x c.y
  lit ⟨0, 0⟩ = 0 ∧ lit (Cursor.moveX ⟨0, 0⟩) = 1 ∧ lit (Cursor.moveX (Cursor.moveX ⟨0, 0⟩)) = 2 ∧
    lit (Cursor.moveX (Cursor.moveX (Cursor.moveX ⟨0, 0⟩))) = 3 ∧
    lit (Cursor.moveX (Cursor.moveX (Cursor.moveX (Cursor.moveX ⟨0, 0⟩)))) = 4 ∧
    lit (Cursor.moveX (Cursor.moveX (Cursor.moveX (Cursor.moveX (Cursor.moveX ⟨0, 0⟩))))) = 0 ∧
    Cursor.moveY ⟨4, 0⟩ = ⟨4, 1⟩ ∧ lit ⟨4, 1⟩ = 5

/-! ### The word level -/

/-- Derived from R49, R63 and R64: a cycle of the word level is a step of the operation level with the same input:
an accepted byte, a refused byte, a held byte, a settle cycle, a command taken, or nothing; with responses
given in the cycle they fall due (`giveRsp`). That the effect of a MAP, SET or CLEAR lands in the cycle that takes
the command is the model's choice (log 21, DESIGN CHOICE), and so are a settle of one cycle for an `N_SETTLE` of 0
(log 13) and the timer's data at the operation level (log 20). -/
def Obligations.CyclesRefineSteps : Prop :=
  ∀ p s, p.rst = false → p.giveRsp = true → quiet s = true →
    (s.txValid = true → p.txErr = false → p.txReady = true →
      step { s with tx := { s.tx with answers := .accepted :: s.tx.answers } } = .next (cycle p s).1) ∧
    (s.txValid = true → p.txErr = true → s.params.txFallible = true →
      step { s with tx := { s.tx with answers := .failed :: s.tx.answers } } = .next (cycle p s).1) ∧
    (s.txValid = true → p.txErr = false → p.txReady = false → (cycle p s).1 = s) ∧
    (s.settling = true → s.params.nSettle ≤ s.settleCount + 1 →
      step { s with timer := { s.timer with answers := .done :: s.timer.answers } } = .next (cycle p s).1) ∧
    (s.settling = true → s.settleCount + 1 < s.params.nSettle →
      (cycle p s).1 = { s with settleCount := s.settleCount + 1 }) ∧
    (s.cmdReady = true → p.cmdValid = true → step (s.place p.cmd) = .next (cycle p s).1) ∧
    (s.cmdReady = true → p.cmdValid = false → (cycle p s).1 = s)

/-- Derived from R8, R64 and R89: the settle lasts `N_SETTLE` cycles from the cycle after byte 74 (at least one, the
model's choice for an `N_SETTLE` of 0, log 13), whatever comes on the other pins; and `N_SETTLE` cycles are at
least `T_SETTLE_US`, which is at least 100 microseconds. -/
def Obligations.SettleLastsItsCycles : Prop :=
  (∀ s ps, s.settling = true → s.settleCount = 0 → s.inReset = false → s.owed = none →
    (∀ p ∈ ps, p.rst = false) →
    (ps.length < max 1 s.params.nSettle →
      (runCycles ps s).txPhase = .settle ∧ (runCycles ps s).trace = s.trace) ∧
    (ps.length = max 1 s.params.nSettle →
      (runCycles ps s).txPhase = .idle ∧ (runCycles ps s).trace = s.trace ++ [.settle])) ∧
  (∀ p : Params, 100 ≤ p.tSettleUs ∧ p.tSettleUs * p.fClkHz ≤ p.nSettle * 1000000)

/-- Derived from R142 and R143: in a cycle with `rst` no command is taken, no byte offered and no response given,
and the state takes its reset value; in the first cycle without it `tx_avail` decides `FAULT.cause`. -/
def Obligations.ResetCyclesAndRelease : Prop :=
  (∀ p s, p.rst = true → (cycle p s).2.cmdReady = false ∧ (cycle p s).2.txData = none ∧
    (cycle p s).2.rsp = none ∧ (cycle p s).1.mem = [] ∧ (cycle p s).1.txPhase = .idle ∧
    (cycle p s).1.txPos = 0 ∧ (cycle p s).1.trace = [] ∧ (cycle p s).1.owed = none) ∧
  (∀ p q s, p.rst = true → q.rst = false → q.cmdValid = false →
    (cycle q (cycle p s).1).1.fault =
      { cause := if q.txAvail then .none else .resourceExhausted, info := 0 } ∧
    (cycle q (cycle p s).1).1.inReset = false ∧ (cycle q (cycle p s).1).2.cmdReady = true ∧
    (cycle q (cycle p s).1).2.rsp = none)

/-- Derived from R91: the block adds no idle cycle of its own: byte 0 is on offer in the cycle after the FLUSH is
taken, and byte `k + 1` in the cycle after byte `k` is accepted. -/
def Obligations.BurstHasNoIdleCycle : Prop :=
  (∀ p q s, p.rst = false → q.rst = false → p.cmdValid = true → decode p.cmd = some .flush →
    s.inReset = false → ready s = true →
    (cycle q (cycle p s).1).2.txData = some (byteAt s.mem 0)) ∧
  (∀ p q s, p.rst = false → q.rst = false → p.txReady = true → p.txErr = false → s.inReset = false →
    s.txValid = true → s.txPos.toNat < 74 →
    (cycle q (cycle p s).1).2.txData = some (byteAt s.mem (s.txPos.toNat + 1)))

/-- Derived from R95: the bit view, by the parameter `BIT_ORDER`: eight bits a byte, 600 a frame, bit 7 first or bit
0 first; the vectors V-F6. -/
def Obligations.BitViewOfAFrame : Prop :=
  (∀ v : Byte, wireBits .msbFirst v = (List.range 8).map (fun i => v.getLsbD (7 - i)) ∧
    wireBits .lsbFirst v = (List.range 8).map (fun i => v.getLsbD i)) ∧
  (∀ o m, (burstBits o (frame m)).length = 600) ∧
  burstBits .msbFirst [0x34, 0x12] =
    [false, false, true, true, false, true, false, false, false, false, false, true, false, false, true, false] ∧
  burstBits .lsbFirst [0x34] = [false, false, true, false, true, true, false, false]

/-! ### The settle timer's duty -/

/-- Derived from R156 and D26: that the settle timer fires is a duty and not built in: a settle whose timer never
fires stands still for ever, with no response, no fault and no timeout; with no reset nothing else ends it. -/
def Obligations.UnfiredSettleIsStuckForever : Prop :=
  ∀ s n, quiet s = true → s.txPhase = .settle → s.faulted = false →
    s.timer.answers = [] → s.timer.rest = .running → run n s = .next s
end

