-- ==== Sys2Proof/Laws/Memory.lean ====
section
/-! SUPPORT. The PixelBuffer's memory: a read after a write, writes elsewhere, the canonical form, and that
canonical memories with equal bytes are equal. -/

namespace Sys2Proof.Laws

open Sys2Proof.Machine

/-! ### One byte -/

theorem wfFrom_mono {lo hi : Nat} {m : Memory} (h : lo ≤ hi) (hm : Memory.wfFrom hi m = true) :
    Memory.wfFrom lo m = true := by
  cases m with
  | nil => rfl
  | cons c m =>
    obtain ⟨a, v⟩ := c
    simp only [Memory.wfFrom, Bool.and_eq_true, decide_eq_true_eq] at hm ⊢
    exact ⟨⟨⟨h.trans hm.1.1.1, hm.1.1.2⟩, hm.1.2⟩, hm.2⟩

theorem read_below {m : Memory} {lo k : Nat} (hm : Memory.wfFrom lo m = true) (hk : k < lo) :
    Memory.read m k = 0#8 := by
  induction m generalizing lo with
  | nil => rfl
  | cons c m ih =>
    obtain ⟨a, v⟩ := c
    simp only [Memory.wfFrom, Bool.and_eq_true, decide_eq_true_eq] at hm
    have hne : a ≠ k := by omega
    simp only [Memory.read, hne, if_false]
    exact ih hm.2 (by omega)

theorem read_insertByte_same {m : Memory} {lo : Nat} (k : Nat) (v : Byte)
    (hm : Memory.wfFrom lo m = true) : Memory.read (Memory.insertByte m k v) k = v := by
  induction m generalizing lo with
  | nil => by_cases hv : v = 0#8 <;> simp [Memory.insertByte, Memory.read, hv]
  | cons c m ih =>
    obtain ⟨a, u⟩ := c
    simp only [Memory.wfFrom, Bool.and_eq_true, decide_eq_true_eq] at hm
    have hrest : k < a + 1 → Memory.read m k = 0#8 := read_below hm.2
    unfold Memory.insertByte
    split
    · rename_i hlt
      have hne : a ≠ k := by omega
      by_cases hv : v = 0#8
      · simp [hv, Memory.read, hne, hrest (by omega)]
      · simp [hv, Memory.read]
    · split
      · rename_i heq
        by_cases hv : v = 0#8
        · simp [hv, hrest (by omega)]
        · simp [hv, Memory.read]
      · rename_i hne
        have hne' : a ≠ k := fun h => hne h.symm
        simp [Memory.read, hne', ih hm.2]

theorem read_insertByte_other (m : Memory) {j k : Nat} (v : Byte) (h : j ≠ k) :
    Memory.read (Memory.insertByte m k v) j = Memory.read m j := by
  induction m with
  | nil => by_cases hv : v = 0#8 <;> simp [Memory.insertByte, Memory.read, hv, h.symm]
  | cons c m ih =>
    obtain ⟨a, u⟩ := c
    unfold Memory.insertByte
    split
    · by_cases hv : v = 0#8 <;> simp [Memory.read, hv, h.symm]
    · split
      · rename_i heq
        subst heq
        by_cases hv : v = 0#8 <;> simp [Memory.read, hv, h.symm]
      · simp [Memory.read, ih]

theorem wfFrom_insertByte {m : Memory} {lo k : Nat} (v : Byte) (hm : Memory.wfFrom lo m = true)
    (hlo : lo ≤ k) (hk : k < Config.frameBytes) :
    Memory.wfFrom lo (Memory.insertByte m k v) = true := by
  induction m generalizing lo with
  | nil => by_cases hv : v = 0#8 <;> simp [Memory.insertByte, Memory.wfFrom, hv, hlo, hk]
  | cons c m ih =>
    obtain ⟨a, u⟩ := c
    have hm' := hm
    simp only [Memory.wfFrom, Bool.and_eq_true, decide_eq_true_eq] at hm
    obtain ⟨⟨⟨hla, ha⟩, hu⟩, hrest⟩ := hm
    unfold Memory.insertByte
    split
    · rename_i hlt
      by_cases hv : v = 0#8
      · simpa [hv] using hm'
      · have h1 : k + 1 ≤ a := hlt
        simp [hv, Memory.wfFrom, hlo, hk, ha, h1, hrest]
        simpa using hu
    · split
      · rename_i heq
        subst heq
        by_cases hv : v = 0#8
        · simpa [hv] using wfFrom_mono (by omega) hrest
        · simp [hv, Memory.wfFrom, hlo, hk, hrest]
      · simp only [Memory.wfFrom, Bool.and_eq_true, decide_eq_true_eq]
        exact ⟨⟨⟨hla, ha⟩, hu⟩, ih hrest (by omega)⟩

theorem read_write_same {m : Memory} {k : Nat} (v : Byte) (hm : Memory.wf m = true)
    (hk : k < Config.frameBytes) : Memory.read (Memory.write m k v) k = v := by
  simpa [Memory.write, hk] using read_insertByte_same k v hm

theorem read_write_other (m : Memory) {j k : Nat} (v : Byte) (h : j ≠ k) :
    Memory.read (Memory.write m k v) j = Memory.read m j := by
  unfold Memory.write
  split
  · exact read_insertByte_other m v h
  · rfl

/-- Every write keeps the canonical form, at whatever address. -/
theorem wf_write {m : Memory} (k : Nat) (v : Byte) (hm : Memory.wf m = true) :
    Memory.wf (Memory.write m k v) = true := by
  unfold Memory.write
  split
  · exact wfFrom_insertByte v hm (Nat.zero_le k) ‹_›
  · exact hm

/-! ### One Pixel -/

theorem wf_setPixel {m : Memory} (i : Nat) (p : Pixel) (hm : Memory.wf m = true) :
    Memory.wf (Memory.setPixel m i p) = true :=
  wf_write _ _ (wf_write _ _ (wf_write _ _ hm))

theorem read_setPixel_other (m : Memory) {i k : Nat} (p : Pixel) (h : k / 3 ≠ i) :
    Memory.read (Memory.setPixel m i p) k = Memory.read m k := by
  unfold Memory.setPixel
  rw [read_write_other _ _ (by omega), read_write_other _ _ (by omega), read_write_other _ _ (by omega)]

theorem pixel_setPixel_same {m : Memory} {i : Nat} (p : Pixel) (hm : Memory.wf m = true)
    (hi : i < Config.ledCount) : Memory.pixel (Memory.setPixel m i p) i = p := by
  have hb : 3 * i + 2 < Config.frameBytes := by simp [Config.ledCount, Config.frameBytes] at *; omega
  have h1 := wf_write (3 * i) p.r hm
  have h2 := wf_write (3 * i + 1) p.g h1
  obtain ⟨r, g, b⟩ := p
  unfold Memory.pixel Memory.setPixel
  rw [read_write_other _ _ (by omega : 3 * i ≠ 3 * i + 2), read_write_other _ _ (by omega : 3 * i ≠ 3 * i + 1),
    read_write_same _ hm (by omega), read_write_other _ _ (by omega : 3 * i + 1 ≠ 3 * i + 2),
    read_write_same _ h1 (by omega), read_write_same _ h2 hb]

theorem pixel_setPixel_other (m : Memory) {i j : Nat} (p : Pixel) (h : j ≠ i) :
    Memory.pixel (Memory.setPixel m i p) j = Memory.pixel m j := by
  unfold Memory.pixel
  rw [read_setPixel_other _ _ (by omega), read_setPixel_other _ _ (by omega),
    read_setPixel_other _ _ (by omega)]

/-! ### Several Pixels -/

/-- Every `MemWrite` keeps the canonical form, wherever it goes. -/
theorem wf_memWrite {m : Memory} (i : Nat) (ps : List Pixel) (hm : Memory.wf m = true) :
    Memory.wf (memWrite m i ps) = true := by
  induction ps generalizing m i with
  | nil => exact hm
  | cons p ps ih => exact ih (i + 1) (wf_setPixel i p hm)

theorem pixel_memWrite_outside (m : Memory) {i j : Nat} (ps : List Pixel)
    (h : j < i ∨ i + ps.length ≤ j) : Memory.pixel (memWrite m i ps) j = Memory.pixel m j := by
  induction ps generalizing m i with
  | nil => rfl
  | cons p ps ih =>
    simp only [List.length_cons] at h
    rw [memWrite, ih _ (by omega), pixel_setPixel_other _ _ (by omega)]

theorem read_memWrite_outside (m : Memory) {i k : Nat} (ps : List Pixel)
    (h : k / 3 < i ∨ i + ps.length ≤ k / 3) : Memory.read (memWrite m i ps) k = Memory.read m k := by
  induction ps generalizing m i with
  | nil => rfl
  | cons p ps ih =>
    simp only [List.length_cons] at h
    rw [memWrite, ih _ (by omega), read_setPixel_other _ _ (by omega)]

theorem pixel_memWrite_inside {m : Memory} {i j : Nat} (ps : List Pixel) (hm : Memory.wf m = true)
    (hb : i + ps.length ≤ Config.ledCount) (hj : j < ps.length) :
    Memory.pixel (memWrite m i ps) (i + j) = ps[j] := by
  induction ps generalizing m i j with
  | nil => simp at hj
  | cons p ps ih =>
    simp only [List.length_cons] at hb hj
    cases j with
    | zero =>
      rw [memWrite, pixel_memWrite_outside _ _ (by omega)]
      simpa using pixel_setPixel_same p hm (by omega)
    | succ j =>
      have := ih (wf_setPixel i p hm) (i := i + 1) (j := j) (by omega) (by omega)
      rw [memWrite, show i + (j + 1) = i + 1 + j by omega, this]
      rfl

/-! ### Equal bytes, equal memories -/

theorem wf_ext_from {m n : Memory} {lo : Nat} (hm : Memory.wfFrom lo m = true)
    (hn : Memory.wfFrom lo n = true) (h : ∀ k, Memory.read m k = Memory.read n k) : m = n := by
  induction m generalizing n lo with
  | nil =>
    cases n with
    | nil => rfl
    | cons c n =>
      obtain ⟨a, v⟩ := c
      simp only [Memory.wfFrom, Bool.and_eq_true, bne_iff_ne] at hn
      have := h a
      simp only [Memory.read, if_true] at this
      exact absurd this.symm hn.1.2
  | cons c m ih =>
    obtain ⟨a, v⟩ := c
    simp only [Memory.wfFrom, Bool.and_eq_true, decide_eq_true_eq, bne_iff_ne] at hm
    cases n with
    | nil =>
      have := h a
      simp only [Memory.read, if_true] at this
      exact absurd this hm.1.2
    | cons d n =>
      obtain ⟨b, w⟩ := d
      simp only [Memory.wfFrom, Bool.and_eq_true, decide_eq_true_eq, bne_iff_ne] at hn
      have hab : a = b := by
        rcases Nat.lt_trichotomy a b with hlt | heq | hgt
        · have := h a
          have hne : b ≠ a := by omega
          simp only [Memory.read, if_true, hne, if_false, read_below hn.2 (by omega : a < b + 1)] at this
          exact absurd this hm.1.2
        · exact heq
        · have := h b
          have hne : a ≠ b := by omega
          simp only [Memory.read, if_true, hne, if_false, read_below hm.2 (by omega : b < a + 1)] at this
          exact absurd this.symm hn.1.2
      subst hab
      have hv : v = w := by simpa [Memory.read] using h a
      subst hv
      congr 1
      refine ih hm.2 hn.2 fun k => ?_
      by_cases hk : k = a
      · subst hk
        rw [read_below hm.2 (by omega), read_below hn.2 (by omega)]
      · have := h k
        simpa [Memory.read, Ne.symm hk] using this

/-- Canonical memories that read the same everywhere are the same data. -/
theorem wf_ext {m n : Memory} (hm : Memory.wf m = true) (hn : Memory.wf n = true)
    (h : ∀ k, Memory.read m k = Memory.read n k) : m = n := wf_ext_from hm hn h

end Sys2Proof.Laws
end

