-- ==== Sys2Proof/Laws/State.lean ====
section
/-! SUPPORT. What each update of the state leaves in each field, one lemma per field per update. -/

namespace Sys2Proof.Laws

open Sys2Proof.Machine

@[simp] theorem cursor_reset : Cursor.reset = ⟨0, 0⟩ := rfl

variable (s : State)

/-! ### accept -/

@[simp] theorem accept_mem : (State.accept s).mem = s.mem := rfl
@[simp] theorem accept_txPhase : (State.accept s).txPhase = s.txPhase := rfl
@[simp] theorem accept_txPos : (State.accept s).txPos = s.txPos := rfl
@[simp] theorem accept_fault : (State.accept s).fault = s.fault := rfl
@[simp] theorem accept_owed : (State.accept s).owed = s.owed := rfl
@[simp] theorem accept_settleCount : (State.accept s).settleCount = s.settleCount := rfl
@[simp] theorem accept_inReset : (State.accept s).inReset = s.inReset := rfl
@[simp] theorem accept_trace : (State.accept s).trace = s.trace := rfl
@[simp] theorem accept_warm : (State.accept s).warm = s.warm := rfl
@[simp] theorem accept_rsp : (State.accept s).rsp = s.rsp := rfl
@[simp] theorem accept_rsps : (State.accept s).rsps = s.rsps := rfl
@[simp] theorem accept_cmds : (State.accept s).cmds = s.cmds.tail := rfl
@[simp] theorem accept_rst : (State.accept s).rst = s.rst := rfl
@[simp] theorem accept_tx : (State.accept s).tx = s.tx := rfl
@[simp] theorem accept_timer : (State.accept s).timer = s.timer := rfl
@[simp] theorem accept_host : (State.accept s).host = s.host := rfl
@[simp] theorem accept_params : (State.accept s).params = s.params := rfl

/-! ### complete -/

@[simp] theorem complete_mem (v : Nat) : (State.complete v s).mem = s.mem := rfl
@[simp] theorem complete_txPhase (v : Nat) : (State.complete v s).txPhase = s.txPhase := rfl
@[simp] theorem complete_txPos (v : Nat) : (State.complete v s).txPos = s.txPos := rfl
@[simp] theorem complete_fault (v : Nat) : (State.complete v s).fault = s.fault := rfl
@[simp] theorem complete_owed (v : Nat) : (State.complete v s).owed = some (okRsp v) := rfl
@[simp] theorem complete_settleCount (v : Nat) : (State.complete v s).settleCount = s.settleCount := rfl
@[simp] theorem complete_inReset (v : Nat) : (State.complete v s).inReset = s.inReset := rfl
@[simp] theorem complete_trace (v : Nat) : (State.complete v s).trace = s.trace := rfl
@[simp] theorem complete_warm (v : Nat) : (State.complete v s).warm = s.warm := rfl
@[simp] theorem complete_rsp (v : Nat) : (State.complete v s).rsp = s.rsp := rfl
@[simp] theorem complete_rsps (v : Nat) : (State.complete v s).rsps = s.rsps := rfl
@[simp] theorem complete_cmds (v : Nat) : (State.complete v s).cmds = s.cmds := rfl
@[simp] theorem complete_rst (v : Nat) : (State.complete v s).rst = s.rst := rfl
@[simp] theorem complete_tx (v : Nat) : (State.complete v s).tx = s.tx := rfl
@[simp] theorem complete_timer (v : Nat) : (State.complete v s).timer = s.timer := rfl
@[simp] theorem complete_host (v : Nat) : (State.complete v s).host = s.host := rfl
@[simp] theorem complete_params (v : Nat) : (State.complete v s).params = s.params := rfl

/-! ### deliver -/

@[simp] theorem deliver_mem : (State.deliver s).mem = s.mem := rfl
@[simp] theorem deliver_txPhase : (State.deliver s).txPhase = s.txPhase := rfl
@[simp] theorem deliver_txPos : (State.deliver s).txPos = s.txPos := rfl
@[simp] theorem deliver_fault : (State.deliver s).fault = s.fault := rfl
@[simp] theorem deliver_owed : (State.deliver s).owed = none := rfl
@[simp] theorem deliver_settleCount : (State.deliver s).settleCount = s.settleCount := rfl
@[simp] theorem deliver_inReset : (State.deliver s).inReset = s.inReset := rfl
@[simp] theorem deliver_trace : (State.deliver s).trace = s.trace := rfl
@[simp] theorem deliver_warm : (State.deliver s).warm = s.warm := rfl
@[simp] theorem deliver_rsp : (State.deliver s).rsp = s.owed.or s.rsp := rfl
@[simp] theorem deliver_rsps : (State.deliver s).rsps = s.rsps ++ s.owed.toList := rfl
@[simp] theorem deliver_cmds : (State.deliver s).cmds = s.cmds := rfl
@[simp] theorem deliver_rst : (State.deliver s).rst = s.rst := rfl
@[simp] theorem deliver_tx : (State.deliver s).tx = s.tx := rfl
@[simp] theorem deliver_timer : (State.deliver s).timer = s.timer := rfl
@[simp] theorem deliver_host : (State.deliver s).host = s.host := rfl
@[simp] theorem deliver_params : (State.deliver s).params = s.params := rfl

/-! ### recordFault -/

@[simp] theorem recordFault_mem (c : Cause) (info : Word) : (State.recordFault c info s).mem = s.mem := rfl
@[simp] theorem recordFault_txPhase (c : Cause) (info : Word) : (State.recordFault c info s).txPhase = s.txPhase := rfl
@[simp] theorem recordFault_txPos (c : Cause) (info : Word) : (State.recordFault c info s).txPos = s.txPos := rfl
@[simp] theorem recordFault_fault (c : Cause) (info : Word) : (State.recordFault c info s).fault = { cause := c, info := info } := rfl
@[simp] theorem recordFault_owed (c : Cause) (info : Word) : (State.recordFault c info s).owed = s.owed := rfl
@[simp] theorem recordFault_settleCount (c : Cause) (info : Word) : (State.recordFault c info s).settleCount = s.settleCount := rfl
@[simp] theorem recordFault_inReset (c : Cause) (info : Word) : (State.recordFault c info s).inReset = s.inReset := rfl
@[simp] theorem recordFault_trace (c : Cause) (info : Word) : (State.recordFault c info s).trace = s.trace := rfl
@[simp] theorem recordFault_warm (c : Cause) (info : Word) : (State.recordFault c info s).warm = s.warm := rfl
@[simp] theorem recordFault_rsp (c : Cause) (info : Word) : (State.recordFault c info s).rsp = s.rsp := rfl
@[simp] theorem recordFault_rsps (c : Cause) (info : Word) : (State.recordFault c info s).rsps = s.rsps := rfl
@[simp] theorem recordFault_cmds (c : Cause) (info : Word) : (State.recordFault c info s).cmds = s.cmds := rfl
@[simp] theorem recordFault_rst (c : Cause) (info : Word) : (State.recordFault c info s).rst = s.rst := rfl
@[simp] theorem recordFault_tx (c : Cause) (info : Word) : (State.recordFault c info s).tx = s.tx := rfl
@[simp] theorem recordFault_timer (c : Cause) (info : Word) : (State.recordFault c info s).timer = s.timer := rfl
@[simp] theorem recordFault_host (c : Cause) (info : Word) : (State.recordFault c info s).host = s.host := rfl
@[simp] theorem recordFault_params (c : Cause) (info : Word) : (State.recordFault c info s).params = s.params := rfl

/-! ### raise -/

@[simp] theorem raise_mem (c : Cause) (info : Word) : (State.raise c info s).mem = s.mem := rfl
@[simp] theorem raise_txPhase (c : Cause) (info : Word) : (State.raise c info s).txPhase = s.txPhase := rfl
@[simp] theorem raise_txPos (c : Cause) (info : Word) : (State.raise c info s).txPos = s.txPos := rfl
@[simp] theorem raise_fault (c : Cause) (info : Word) : (State.raise c info s).fault = { cause := c, info := info } := rfl
@[simp] theorem raise_owed (c : Cause) (info : Word) : (State.raise c info s).owed = some (errRsp c) := rfl
@[simp] theorem raise_settleCount (c : Cause) (info : Word) : (State.raise c info s).settleCount = s.settleCount := rfl
@[simp] theorem raise_inReset (c : Cause) (info : Word) : (State.raise c info s).inReset = s.inReset := rfl
@[simp] theorem raise_trace (c : Cause) (info : Word) : (State.raise c info s).trace = s.trace := rfl
@[simp] theorem raise_warm (c : Cause) (info : Word) : (State.raise c info s).warm = s.warm := rfl
@[simp] theorem raise_rsp (c : Cause) (info : Word) : (State.raise c info s).rsp = s.rsp := rfl
@[simp] theorem raise_rsps (c : Cause) (info : Word) : (State.raise c info s).rsps = s.rsps := rfl
@[simp] theorem raise_cmds (c : Cause) (info : Word) : (State.raise c info s).cmds = s.cmds := rfl
@[simp] theorem raise_rst (c : Cause) (info : Word) : (State.raise c info s).rst = s.rst := rfl
@[simp] theorem raise_tx (c : Cause) (info : Word) : (State.raise c info s).tx = s.tx := rfl
@[simp] theorem raise_timer (c : Cause) (info : Word) : (State.raise c info s).timer = s.timer := rfl
@[simp] theorem raise_host (c : Cause) (info : Word) : (State.raise c info s).host = s.host := rfl
@[simp] theorem raise_params (c : Cause) (info : Word) : (State.raise c info s).params = s.params := rfl

/-! ### answerHalted -/

@[simp] theorem answerHalted_mem : (State.answerHalted s).mem = s.mem := rfl
@[simp] theorem answerHalted_txPhase : (State.answerHalted s).txPhase = s.txPhase := rfl
@[simp] theorem answerHalted_txPos : (State.answerHalted s).txPos = s.txPos := rfl
@[simp] theorem answerHalted_fault : (State.answerHalted s).fault = s.fault := rfl
@[simp] theorem answerHalted_owed : (State.answerHalted s).owed = some (errRsp s.fault.cause) := rfl
@[simp] theorem answerHalted_settleCount : (State.answerHalted s).settleCount = s.settleCount := rfl
@[simp] theorem answerHalted_inReset : (State.answerHalted s).inReset = s.inReset := rfl
@[simp] theorem answerHalted_trace : (State.answerHalted s).trace = s.trace := rfl
@[simp] theorem answerHalted_warm : (State.answerHalted s).warm = s.warm := rfl
@[simp] theorem answerHalted_rsp : (State.answerHalted s).rsp = s.rsp := rfl
@[simp] theorem answerHalted_rsps : (State.answerHalted s).rsps = s.rsps := rfl
@[simp] theorem answerHalted_cmds : (State.answerHalted s).cmds = s.cmds := rfl
@[simp] theorem answerHalted_rst : (State.answerHalted s).rst = s.rst := rfl
@[simp] theorem answerHalted_tx : (State.answerHalted s).tx = s.tx := rfl
@[simp] theorem answerHalted_timer : (State.answerHalted s).timer = s.timer := rfl
@[simp] theorem answerHalted_host : (State.answerHalted s).host = s.host := rfl
@[simp] theorem answerHalted_params : (State.answerHalted s).params = s.params := rfl

/-! ### startBurst -/

@[simp] theorem startBurst_mem : (State.startBurst s).mem = s.mem := rfl
@[simp] theorem startBurst_txPhase : (State.startBurst s).txPhase = .burst := rfl
@[simp] theorem startBurst_txPos : (State.startBurst s).txPos = 0 := rfl
@[simp] theorem startBurst_fault : (State.startBurst s).fault = s.fault := rfl
@[simp] theorem startBurst_owed : (State.startBurst s).owed = s.owed := rfl
@[simp] theorem startBurst_settleCount : (State.startBurst s).settleCount = s.settleCount := rfl
@[simp] theorem startBurst_inReset : (State.startBurst s).inReset = s.inReset := rfl
@[simp] theorem startBurst_trace : (State.startBurst s).trace = s.trace := rfl
@[simp] theorem startBurst_warm : (State.startBurst s).warm = s.warm := rfl
@[simp] theorem startBurst_rsp : (State.startBurst s).rsp = s.rsp := rfl
@[simp] theorem startBurst_rsps : (State.startBurst s).rsps = s.rsps := rfl
@[simp] theorem startBurst_cmds : (State.startBurst s).cmds = s.cmds := rfl
@[simp] theorem startBurst_rst : (State.startBurst s).rst = s.rst := rfl
@[simp] theorem startBurst_tx : (State.startBurst s).tx = s.tx := rfl
@[simp] theorem startBurst_timer : (State.startBurst s).timer = s.timer := rfl
@[simp] theorem startBurst_host : (State.startBurst s).host = s.host := rfl
@[simp] theorem startBurst_params : (State.startBurst s).params = s.params := rfl

/-! ### byteAccepted -/

@[simp] theorem byteAccepted_mem : (State.byteAccepted s).mem = s.mem := rfl
@[simp] theorem byteAccepted_txPhase : (State.byteAccepted s).txPhase = if s.txPos + 1 = 75 then .settle else .burst := rfl
@[simp] theorem byteAccepted_txPos : (State.byteAccepted s).txPos = s.txPos + 1 := rfl
@[simp] theorem byteAccepted_fault : (State.byteAccepted s).fault = s.fault := rfl
@[simp] theorem byteAccepted_owed : (State.byteAccepted s).owed = s.owed := rfl
@[simp] theorem byteAccepted_settleCount : (State.byteAccepted s).settleCount = 0 := rfl
@[simp] theorem byteAccepted_inReset : (State.byteAccepted s).inReset = s.inReset := rfl
@[simp] theorem byteAccepted_trace : (State.byteAccepted s).trace = s.trace ++ [.byte (byteAt s.mem s.txPos.toNat)] := rfl
@[simp] theorem byteAccepted_warm : (State.byteAccepted s).warm = s.warm := rfl
@[simp] theorem byteAccepted_rsp : (State.byteAccepted s).rsp = s.rsp := rfl
@[simp] theorem byteAccepted_rsps : (State.byteAccepted s).rsps = s.rsps := rfl
@[simp] theorem byteAccepted_cmds : (State.byteAccepted s).cmds = s.cmds := rfl
@[simp] theorem byteAccepted_rst : (State.byteAccepted s).rst = s.rst := rfl
@[simp] theorem byteAccepted_tx : (State.byteAccepted s).tx = s.tx := rfl
@[simp] theorem byteAccepted_timer : (State.byteAccepted s).timer = s.timer := rfl
@[simp] theorem byteAccepted_host : (State.byteAccepted s).host = s.host := rfl
@[simp] theorem byteAccepted_params : (State.byteAccepted s).params = s.params := rfl

/-! ### byteFailed -/

@[simp] theorem byteFailed_mem : (State.byteFailed s).mem = s.mem := rfl
@[simp] theorem byteFailed_txPhase : (State.byteFailed s).txPhase = s.txPhase := rfl
@[simp] theorem byteFailed_txPos : (State.byteFailed s).txPos = s.txPos := rfl
@[simp] theorem byteFailed_fault : (State.byteFailed s).fault = { cause := .ioFailure, info := s.txPos.setWidth 32 } := rfl
@[simp] theorem byteFailed_owed : (State.byteFailed s).owed = some (errRsp .ioFailure) := rfl
@[simp] theorem byteFailed_settleCount : (State.byteFailed s).settleCount = s.settleCount := rfl
@[simp] theorem byteFailed_inReset : (State.byteFailed s).inReset = s.inReset := rfl
@[simp] theorem byteFailed_trace : (State.byteFailed s).trace = s.trace := rfl
@[simp] theorem byteFailed_warm : (State.byteFailed s).warm = s.warm := rfl
@[simp] theorem byteFailed_rsp : (State.byteFailed s).rsp = s.rsp := rfl
@[simp] theorem byteFailed_rsps : (State.byteFailed s).rsps = s.rsps := rfl
@[simp] theorem byteFailed_cmds : (State.byteFailed s).cmds = s.cmds := rfl
@[simp] theorem byteFailed_rst : (State.byteFailed s).rst = s.rst := rfl
@[simp] theorem byteFailed_tx : (State.byteFailed s).tx = s.tx := rfl
@[simp] theorem byteFailed_timer : (State.byteFailed s).timer = s.timer := rfl
@[simp] theorem byteFailed_host : (State.byteFailed s).host = s.host := rfl
@[simp] theorem byteFailed_params : (State.byteFailed s).params = s.params := rfl

/-! ### settleDone -/

@[simp] theorem settleDone_mem : (State.settleDone s).mem = s.mem := rfl
@[simp] theorem settleDone_txPhase : (State.settleDone s).txPhase = .idle := rfl
@[simp] theorem settleDone_txPos : (State.settleDone s).txPos = 0 := rfl
@[simp] theorem settleDone_fault : (State.settleDone s).fault = s.fault := rfl
@[simp] theorem settleDone_owed : (State.settleDone s).owed = some (okRsp 0) := rfl
@[simp] theorem settleDone_settleCount : (State.settleDone s).settleCount = 0 := rfl
@[simp] theorem settleDone_inReset : (State.settleDone s).inReset = s.inReset := rfl
@[simp] theorem settleDone_trace : (State.settleDone s).trace = s.trace ++ [.settle] := rfl
@[simp] theorem settleDone_warm : (State.settleDone s).warm = s.warm := rfl
@[simp] theorem settleDone_rsp : (State.settleDone s).rsp = s.rsp := rfl
@[simp] theorem settleDone_rsps : (State.settleDone s).rsps = s.rsps := rfl
@[simp] theorem settleDone_cmds : (State.settleDone s).cmds = s.cmds := rfl
@[simp] theorem settleDone_rst : (State.settleDone s).rst = s.rst := rfl
@[simp] theorem settleDone_tx : (State.settleDone s).tx = s.tx := rfl
@[simp] theorem settleDone_timer : (State.settleDone s).timer = s.timer := rfl
@[simp] theorem settleDone_host : (State.settleDone s).host = s.host := rfl
@[simp] theorem settleDone_params : (State.settleDone s).params = s.params := rfl

/-! ### resetBlock -/

@[simp] theorem resetBlock_mem : (State.resetBlock s).mem = [] := rfl
@[simp] theorem resetBlock_txPhase : (State.resetBlock s).txPhase = .idle := rfl
@[simp] theorem resetBlock_txPos : (State.resetBlock s).txPos = 0 := rfl
@[simp] theorem resetBlock_fault : (State.resetBlock s).fault = { cause := .none, info := 0 } := rfl
@[simp] theorem resetBlock_owed : (State.resetBlock s).owed = none := rfl
@[simp] theorem resetBlock_settleCount : (State.resetBlock s).settleCount = 0 := rfl
@[simp] theorem resetBlock_inReset : (State.resetBlock s).inReset = s.inReset := rfl
@[simp] theorem resetBlock_trace : (State.resetBlock s).trace = [] := rfl
@[simp] theorem resetBlock_warm : (State.resetBlock s).warm = (s.warm || !s.inReset) := rfl
@[simp] theorem resetBlock_rsp : (State.resetBlock s).rsp = none := rfl
@[simp] theorem resetBlock_rsps : (State.resetBlock s).rsps = s.rsps := rfl
@[simp] theorem resetBlock_cmds : (State.resetBlock s).cmds = if s.host.driver then [] else s.cmds := rfl
@[simp] theorem resetBlock_rst : (State.resetBlock s).rst = s.rst := rfl
@[simp] theorem resetBlock_tx : (State.resetBlock s).tx = s.tx := rfl
@[simp] theorem resetBlock_timer : (State.resetBlock s).timer = s.timer := rfl
@[simp] theorem resetBlock_host : (State.resetBlock s).host = HostState.restart s.host := rfl
@[simp] theorem resetBlock_params : (State.resetBlock s).params = s.params := rfl

/-! ### offer -/

@[simp] theorem offer_mem (i : Instr) (rest : List HostAction) : (State.offer i rest s).mem = s.mem := rfl
@[simp] theorem offer_txPhase (i : Instr) (rest : List HostAction) : (State.offer i rest s).txPhase = s.txPhase := rfl
@[simp] theorem offer_txPos (i : Instr) (rest : List HostAction) : (State.offer i rest s).txPos = s.txPos := rfl
@[simp] theorem offer_fault (i : Instr) (rest : List HostAction) : (State.offer i rest s).fault = s.fault := rfl
@[simp] theorem offer_owed (i : Instr) (rest : List HostAction) : (State.offer i rest s).owed = s.owed := rfl
@[simp] theorem offer_settleCount (i : Instr) (rest : List HostAction) : (State.offer i rest s).settleCount = s.settleCount := rfl
@[simp] theorem offer_inReset (i : Instr) (rest : List HostAction) : (State.offer i rest s).inReset = s.inReset := rfl
@[simp] theorem offer_trace (i : Instr) (rest : List HostAction) : (State.offer i rest s).trace = s.trace := rfl
@[simp] theorem offer_warm (i : Instr) (rest : List HostAction) : (State.offer i rest s).warm = s.warm := rfl
@[simp] theorem offer_rsp (i : Instr) (rest : List HostAction) : (State.offer i rest s).rsp = s.rsp := rfl
@[simp] theorem offer_rsps (i : Instr) (rest : List HostAction) : (State.offer i rest s).rsps = s.rsps := rfl
@[simp] theorem offer_cmds (i : Instr) (rest : List HostAction) : (State.offer i rest s).cmds = [encode i] := rfl
@[simp] theorem offer_rst (i : Instr) (rest : List HostAction) : (State.offer i rest s).rst = s.rst := rfl
@[simp] theorem offer_tx (i : Instr) (rest : List HostAction) : (State.offer i rest s).tx = s.tx := rfl
@[simp] theorem offer_timer (i : Instr) (rest : List HostAction) : (State.offer i rest s).timer = s.timer := rfl
@[simp] theorem offer_host (i : Instr) (rest : List HostAction) : (State.offer i rest s).host = { s.host with todo := rest } := rfl
@[simp] theorem offer_params (i : Instr) (rest : List HostAction) : (State.offer i rest s).params = s.params := rfl

/-! ### hostDoes -/

@[simp] theorem hostDoes_mem (rest : List HostAction) : (State.hostDoes rest s).mem = s.mem := rfl
@[simp] theorem hostDoes_txPhase (rest : List HostAction) : (State.hostDoes rest s).txPhase = s.txPhase := rfl
@[simp] theorem hostDoes_txPos (rest : List HostAction) : (State.hostDoes rest s).txPos = s.txPos := rfl
@[simp] theorem hostDoes_fault (rest : List HostAction) : (State.hostDoes rest s).fault = s.fault := rfl
@[simp] theorem hostDoes_owed (rest : List HostAction) : (State.hostDoes rest s).owed = s.owed := rfl
@[simp] theorem hostDoes_settleCount (rest : List HostAction) : (State.hostDoes rest s).settleCount = s.settleCount := rfl
@[simp] theorem hostDoes_inReset (rest : List HostAction) : (State.hostDoes rest s).inReset = s.inReset := rfl
@[simp] theorem hostDoes_trace (rest : List HostAction) : (State.hostDoes rest s).trace = s.trace := rfl
@[simp] theorem hostDoes_warm (rest : List HostAction) : (State.hostDoes rest s).warm = s.warm := rfl
@[simp] theorem hostDoes_rsp (rest : List HostAction) : (State.hostDoes rest s).rsp = s.rsp := rfl
@[simp] theorem hostDoes_rsps (rest : List HostAction) : (State.hostDoes rest s).rsps = s.rsps := rfl
@[simp] theorem hostDoes_cmds (rest : List HostAction) : (State.hostDoes rest s).cmds = s.cmds := rfl
@[simp] theorem hostDoes_rst (rest : List HostAction) : (State.hostDoes rest s).rst = s.rst := rfl
@[simp] theorem hostDoes_tx (rest : List HostAction) : (State.hostDoes rest s).tx = s.tx := rfl
@[simp] theorem hostDoes_timer (rest : List HostAction) : (State.hostDoes rest s).timer = s.timer := rfl
@[simp] theorem hostDoes_host (rest : List HostAction) : (State.hostDoes rest s).host = { s.host with todo := rest } := rfl
@[simp] theorem hostDoes_params (rest : List HostAction) : (State.hostDoes rest s).params = s.params := rfl

end Sys2Proof.Laws
end

