-- ==== Sys2Proof/Laws/Ops.lean ====
section
/-! SUPPORT. What each shared operation can do, said once. -/

namespace Sys2Proof.Laws

open Sys2Proof.Machine Sys2Proof.Safety

/-! ### Readiness -/

theorem ready_iff (s : State) :
    ready s = true ↔ s.owed = none ∧ s.txPhase = .idle ∧ s.faulted = false := by
  simp [ready, and_assoc]

theorem ready_cmdReady {s : State} (h : ready s = true) : s.cmdReady = true := by
  obtain ⟨ho, hp, -⟩ := (ready_iff s).1 h
  simp [State.cmdReady, ho, hp]

theorem cmdReady_iff (s : State) :
    s.cmdReady = true ↔ s.owed = none ∧ (s.txPhase = .idle ∨ s.faulted = true) := by
  simp [State.cmdReady]

theorem faulted_iff (s : State) : s.faulted = true ↔ s.fault.cause ≠ .none := by
  simp [State.faulted]

theorem not_faulted_iff (s : State) : s.faulted = false ↔ s.fault.cause = .none := by
  simp [State.faulted]

/-! ### Operand ranges -/

theorem coordInRange_iff (x y : Nat) : coordInRange x y = true ↔ x < 5 ∧ y < 5 := by
  simp only [coordInRange, Bool.and_eq_true, decide_eq_true_eq]

theorem coordInRange_false (x y : Nat) : coordInRange x y = false ↔ 5 ≤ x ∨ 5 ≤ y := by
  rw [← Bool.not_eq_true, coordInRange_iff]; omega

theorem indexInRange_iff (i : Nat) : indexInRange i = true ↔ i < 25 := by
  simp only [indexInRange, decide_eq_true_eq]

theorem indexInRange_false (i : Nat) : indexInRange i = false ↔ 25 ≤ i := by
  rw [← Bool.not_eq_true, indexInRange_iff]; omega

/-! ### Bodies, commands, answers -/

theorem guarded_faulted {body : State → State} {s : State} (h : s.faulted = true) :
    guarded body s = State.answerHalted s := by
  simp [guarded, h]

theorem guarded_sound {body : State → State} {s : State} (h : s.faulted = false) :
    guarded body s = body s := by
  simp [guarded, h]

theorem runCommand_ready {effect : State → State} {s : State} (h : s.cmdReady = true) :
    runCommand effect s = .next (State.deliver (effect (State.accept s))) := by
  simp [runCommand, h]

theorem runCommand_busy {effect : State → State} {s : State} (h : s.cmdReady = false) :
    runCommand effect s = .next s := by
  simp [runCommand, h]

/-- Everything `runCommand` can do. -/
theorem runCommand_next {effect : State → State} {s t : State}
    (h : runCommand effect s = .next t) :
    (s.cmdReady = true ∧ t = State.deliver (effect (State.accept s))) ∨ (s.cmdReady = false ∧ t = s) := by
  cases hc : s.cmdReady with
  | true =>
    rw [runCommand_ready hc] at h
    injection h with h
    exact .inl ⟨rfl, h.symm⟩
  | false =>
    rw [runCommand_busy hc] at h
    injection h with h
    exact .inr ⟨rfl, h.symm⟩

@[simp] theorem accept_faulted (s : State) : (State.accept s).faulted = s.faulted := rfl

/-- A completed operation, then its response: the command is gone and answered. -/
theorem deliver_complete_accept (v : Nat) (s : State) :
    State.deliver (State.complete v (State.accept s)) = answered s (okRsp v) := rfl

/-- The same for an operation that also writes the PixelBuffer. -/
theorem deliver_complete_mem (v : Nat) (s : State) (m : Memory) :
    State.deliver (State.complete v { State.accept s with mem := m }) =
      { answered s (okRsp v) with mem := m } := rfl

/-- A raised fault, then its response (R121). -/
theorem deliver_raise_accept (c : Cause) (info : Word) (s : State) :
    State.deliver (State.raise c info (State.accept s)) = raised c info s := rfl

/-- A halted block's answer (R126). -/
theorem deliver_halted_accept (s : State) :
    State.deliver (State.answerHalted (State.accept s)) = answered s (errRsp s.fault.cause) := rfl

/-- A command that a ready block executes. -/
theorem runCommand_guarded {body : State → State} {s : State} (h : ready s = true) :
    runCommand (guarded body) s = .next (State.deliver (body (State.accept s))) := by
  rw [runCommand_ready (ready_cmdReady h), guarded_sound]
  exact ((ready_iff s).1 h).2.2

/-- A command that a faulted block answers (R126). -/
theorem runCommand_halted {body : State → State} {s : State} (hf : s.faulted = true)
    (ho : s.owed = none) :
    runCommand (guarded body) s = .next (answered s (errRsp s.fault.cause)) := by
  rw [runCommand_ready ((cmdReady_iff s).2 ⟨ho, .inr hf⟩), guarded_faulted (by exact hf),
    deliver_halted_accept]

/-- With no response owed, giving it does nothing. -/
theorem deliver_quiet {s : State} (h : s.owed = none) : State.deliver s = s := by
  obtain ⟨⟩ := s
  simp_all [State.deliver]

/-! ### The agents -/

/-- Everything a step can do, by who moves. -/
theorem step_next {s t : State} (h : step s = .next t) :
    (s.mover = .reset ∧ t = s.warmReset) ∨ (s.mover = .release ∧ t = s.release) ∨
    (s.mover = .collaborator ∧ t = s.collaboratorStep) ∨ (s.mover = .timer ∧ t = s.timerStep) ∨
    (s.mover = .respond ∧ t = s.deliver) ∨ (s.mover = .host ∧ t = s.hostStep) ∨
    (∃ w i, s.mover = .command w ∧ decode w = some i ∧ exec i s = .next t) ∨
    (∃ w, s.mover = .command w ∧ decode w = none ∧ execIllegal w s = .next t) := by
  unfold step at h
  cases hm : s.mover with
  | command w =>
    simp only [hm] at h
    cases hd : decode w with
    | none => simp only [hd] at h; simp [hd, h]
    | some i => simp only [hd] at h; simp [hd, h]
  | _ => simp only [hm] at h; injection h with h; simp [h]

/-- Everything the collaborator's step can do (R87, R88, R94). -/
theorem collaboratorStep_cases (s : State) :
    (s.tx.answer = .accepted ∧ s.collaboratorStep = State.byteAccepted { s with tx := s.tx.advance }) ∨
    (s.tx.answer = .failed ∧ s.params.txFallible = true ∧
      s.collaboratorStep = State.deliver (State.byteFailed { s with tx := s.tx.advance })) ∨
    (s.tx.answer ≠ .accepted ∧ (s.tx.answer = .failed → s.params.txFallible = false) ∧
      s.collaboratorStep = { s with tx := s.tx.advance }) := by
  unfold State.collaboratorStep
  cases s.tx.answer with
  | accepted => simp
  | silent => simp
  | failed => cases s.params.txFallible <;> simp

/-- Everything the settle timer's step can do (R89, R156). -/
theorem timerStep_cases (s : State) :
    (s.timer.answer = .done ∧
      s.timerStep = State.deliver (State.settleDone { s with timer := s.timer.advance })) ∨
    (s.timer.answer = .running ∧ s.timerStep = { s with timer := s.timer.advance }) := by
  unfold State.timerStep
  cases s.timer.answer <;> simp

/-! ### The wire order -/

/-- Byte `k` of a burst, channel by channel (R84). -/
theorem byteAt_eq (m : Memory) (k : Nat) :
    byteAt m k =
      if k % 3 = 0 then (Memory.pixel m (k / 3)).g
      else if k % 3 = 1 then (Memory.pixel m (k / 3)).r
      else (Memory.pixel m (k / 3)).b := by
  have h : k % 3 = 0 ∨ k % 3 = 1 ∨ k % 3 = 2 := by omega
  simp only [byteAt, Config.channels, Config.wireOrder]
  rcases h with h | h | h <;> simp [h, Pixel.channel]

/-! ### Responses -/

theorem rspValue_okRsp {v : Nat} (h : v < 32) : rspValue (okRsp v) = v := by
  simp [rspValue, okRsp, BitVec.toNat_setWidth, BitVec.toNat_ofNat, Nat.mod_eq_of_lt h,
    Nat.mod_eq_of_lt (by omega : v < 512)]

theorem rspErr_okRsp (v : Nat) : rspErr (okRsp v) = false := by
  simp [rspErr, okRsp]

theorem rspErr_errRsp (c : Cause) : rspErr (errRsp c) = true := by cases c <;> decide

end Sys2Proof.Laws
end

