-- ==== Sys2Proof/Laws/Meanings.lean ====
section
/-! SUPPORT. Everything the meanings, the host and the mover can do, said once: an inversion lemma each. The
memory a SET or a CLEAR leaves is given by what it reads, so that no proof unfolds `memWrite`. -/

namespace Sys2Proof.Laws

open Sys2Proof.Machine Sys2Proof.Safety

theorem next_inj {a b : State}
    (h : (Host.Outcome.next a : Host.Outcome State Fault Refusal) = .next b) : a = b := by
  cases h
  rfl

/-- `m` is `m₀` after SET of Pixel `i` to `p` (R75). -/
def SetMem (i : Nat) (p : Pixel) (m₀ m : Memory) : Prop :=
  (Memory.wf m₀ = true → Memory.wf m = true ∧ (i < 25 → Memory.pixel m i = p)) ∧
  (∀ j, j ≠ i → Memory.pixel m j = Memory.pixel m₀ j) ∧
  (∀ a, a / 3 ≠ i → Memory.read m a = Memory.read m₀ a)

/-- `m` is `m₀` after CLEAR (R78). -/
def ClearMem (m₀ m : Memory) : Prop :=
  (Memory.wf m₀ = true → Memory.wf m = true ∧ ∀ i < 25, Memory.pixel m i = Pixel.black) ∧
  (∀ a, 25 ≤ a / 3 → Memory.read m a = Memory.read m₀ a)

theorem setMem_memWrite (m : Memory) (i : Nat) (p : Pixel) : SetMem i p m (memWrite m i [p]) := by
  refine ⟨fun hw => ⟨wf_memWrite i [p] hw, fun hi => ?_⟩, fun j hj => ?_, fun a ha => ?_⟩
  · exact pixel_memWrite_inside (j := 0) [p] hw
      (by simp only [Config.ledCount, List.length_singleton]; omega) (by simp)
  · exact pixel_memWrite_outside m [p] (by simp only [List.length_singleton]; omega)
  · exact read_memWrite_outside m [p] (by simp only [List.length_singleton]; omega)

theorem clearMem_memWrite (m : Memory) :
    ClearMem m (memWrite m 0 (List.replicate Config.ledCount Pixel.black)) := by
  generalize hps : List.replicate Config.ledCount Pixel.black = ps
  have hlen : ps.length = 25 := by rw [← hps, List.length_replicate]
  refine ⟨fun hw => ⟨wf_memWrite 0 ps hw, fun i hi => ?_⟩, fun a ha => ?_⟩
  · have := pixel_memWrite_inside (i := 0) (j := i) ps hw (by rw [hlen]) (by omega)
    rw [Nat.zero_add] at this
    rw [this]
    subst hps
    exact List.getElem_replicate _
  · exact read_memWrite_outside m ps (by omega)

/-- What a command does in a block that executes it (R67, R68, R75, R76, R78, R86). -/
def Executes (i : Instr) (s t : State) : Prop :=
  match i with
  | .map x y =>
    (coordInRange x y = true ∧ t = answered s (okRsp (mapIndex x y))) ∨
    (coordInRange x y = false ∧ t = raised .outOfRange (encode (.map x y)) s)
  | .set k r g b =>
    (indexInRange k = true ∧
      ∃ m, t = { answered s (okRsp 0) with mem := m } ∧ SetMem k ⟨r, g, b⟩ s.mem m) ∨
    (indexInRange k = false ∧ t = raised .outOfRange (encode (.set k r g b)) s)
  | .clear => ∃ m, t = { answered s (okRsp 0) with mem := m } ∧ ClearMem s.mem m
  | .flush => t = { s with cmds := s.cmds.tail, txPhase := .burst, txPos := 0 }

/-- Everything exec can do: the block is busy and the command waits, or it is faulted and answers with its
cause, or it executes the command. -/
theorem exec_cases {i : Instr} {s t : State} (h : exec i s = .next t) :
    (s.cmdReady = false ∧ t = s) ∨
    (s.owed = none ∧ s.faulted = true ∧ t = answered s (errRsp s.fault.cause)) ∨
    (ready s = true ∧ Executes i s t) := by
  cases hc : s.cmdReady with
  | false =>
    have e : exec i s = .next s := by cases i <;> exact runCommand_busy hc
    exact .inl ⟨rfl, next_inj (h.symm.trans e)⟩
  | true =>
    obtain ⟨ho, hp⟩ := (cmdReady_iff s).1 hc
    cases hf : s.faulted with
    | true =>
      have e : exec i s = .next (answered s (errRsp s.fault.cause)) := by
        cases i <;> exact runCommand_halted hf ho
      exact .inr (.inl ⟨ho, rfl, next_inj (h.symm.trans e)⟩)
    | false =>
      have hr : ready s = true := (ready_iff s).2 ⟨ho, by simpa [hf] using hp, hf⟩
      refine .inr (.inr ⟨hr, ?_⟩)
      cases i with
      | map x y =>
        have e := next_inj (h.symm.trans (runCommand_guarded hr))
        cases hx : coordInRange x y with
        | true => simp only [hx, if_true] at e; exact .inl ⟨hx, e.trans (deliver_complete_accept _ _)⟩
        | false =>
          simp only [hx, Bool.false_eq_true, if_false] at e
          exact .inr ⟨hx, e.trans (deliver_raise_accept _ _ _)⟩
      | set k r g b =>
        have e := next_inj (h.symm.trans (runCommand_guarded hr))
        cases hx : indexInRange k with
        | true =>
          simp only [hx, if_true] at e
          exact .inl ⟨hx, _, e.trans (deliver_complete_mem _ _ _), setMem_memWrite s.mem k ⟨r, g, b⟩⟩
        | false =>
          simp only [hx, Bool.false_eq_true, if_false] at e
          exact .inr ⟨hx, e.trans (deliver_raise_accept _ _ _)⟩
      | clear =>
        have e := next_inj (h.symm.trans (runCommand_guarded hr))
        exact ⟨_, e.trans (deliver_complete_mem _ _ _), clearMem_memWrite s.mem⟩
      | flush =>
        have e := next_inj (h.symm.trans (runCommand_guarded hr))
        have hq : (State.startBurst (State.accept s)).owed = none := ho
        exact e.trans (deliver_quiet hq)

/-- Everything an illegal word can do (R124, R126). -/
theorem execIllegal_cases {w : Word} {s t : State} (h : execIllegal w s = .next t) :
    (s.cmdReady = false ∧ t = s) ∨
    (s.owed = none ∧ s.faulted = true ∧ t = answered s (errRsp s.fault.cause)) ∨
    (ready s = true ∧ t = raised .illegalCommand w s) := by
  cases hc : s.cmdReady with
  | false => exact .inl ⟨rfl, next_inj (h.symm.trans (runCommand_busy hc))⟩
  | true =>
    obtain ⟨ho, hp⟩ := (cmdReady_iff s).1 hc
    cases hf : s.faulted with
    | true => exact .inr (.inl ⟨ho, rfl, next_inj (h.symm.trans (runCommand_halted hf ho))⟩)
    | false =>
      have hr : ready s = true := (ready_iff s).2 ⟨ho, by simpa [hf] using hp, hf⟩
      exact .inr (.inr ⟨hr, next_inj (h.symm.trans (runCommand_guarded hr))⟩)

/-- What each mover says of the state. -/
theorem mover_says (s : State) :
    (s.mover = .reset → s.rst = true) ∧
    (s.mover = .release → s.rst = false ∧ s.inReset = true) ∧
    (s.mover = .collaborator →
      s.rst = false ∧ s.inReset = false ∧ s.txPhase = .burst ∧ s.faulted = false) ∧
    (s.mover = .timer → s.rst = false ∧ s.inReset = false ∧ s.txPhase = .settle ∧ s.faulted = false) ∧
    (∀ w, s.mover = .command w → s.rst = false ∧ s.inReset = false ∧ s.cmdReady = true ∧
      ∃ rest, s.cmds = w :: rest) ∧
    (s.mover = .host → s.rst = false ∧ s.inReset = false ∧ s.cmdReady = true ∧ s.cmds = []) := by
  unfold State.mover
  cases hp : s.txPhase <;> cases hf : s.faulted <;> cases s.rst <;> cases s.inReset <;>
    cases ho : s.owed <;> cases s.cmds <;>
    simp_all [State.txValid, State.settling, State.cmdReady]

theorem mover_command {s : State} {w : Word} {rest : List Word} (hq : quiet s = true)
    (hr : s.cmdReady = true) (hc : s.cmds = w :: rest) : s.mover = .command w := by
  obtain ⟨ho, hp⟩ := (cmdReady_iff s).1 hr
  simp only [quiet, Bool.and_eq_true, Bool.not_eq_true'] at hq
  rcases hp with hp | hp <;>
    simp [State.mover, hq.1.1, hq.1.2, hp, ho, hc, State.txValid, State.settling]

theorem mover_host {s : State} (hq : quiet s = true) (hr : s.cmdReady = true) (hc : s.cmds = []) :
    s.mover = .host := by
  obtain ⟨ho, hp⟩ := (cmdReady_iff s).1 hr
  simp only [quiet, Bool.and_eq_true, Bool.not_eq_true'] at hq
  rcases hp with hp | hp <;>
    simp [State.mover, hq.1.1, hq.1.2, hp, ho, hc, State.txValid, State.settling]

theorem mover_collaborator {s : State} (hq : quiet s = true) (hp : s.txPhase = .burst)
    (hf : s.faulted = false) : s.mover = .collaborator := by
  simp only [quiet, Bool.and_eq_true, Bool.not_eq_true'] at hq
  simp [State.mover, hq.1.1, hq.1.2, State.txValid, hp, hf]

theorem mover_timer {s : State} (hq : quiet s = true) (hp : s.txPhase = .settle)
    (hf : s.faulted = false) : s.mover = .timer := by
  simp only [quiet, Bool.and_eq_true, Bool.not_eq_true'] at hq
  simp [State.mover, hq.1.1, hq.1.2, State.txValid, State.settling, hp, hf]

/-- A host step changes nothing but the host itself and the commands on offer, and keeps the driver. -/
theorem hostStep_frame (s : State) :
    ∃ cmds host, s.hostStep = { s with cmds := cmds, host := host } ∧ host.driver = s.host.driver := by
  unfold State.hostStep
  split
  · split
    · exact ⟨_, _, rfl, rfl⟩
    · unfold State.hostAct
      split
      · exact ⟨_, _, rfl, rfl⟩
      · exact ⟨_, _, rfl, rfl⟩
      · exact ⟨_, _, rfl, rfl⟩
      · split <;> exact ⟨_, _, rfl, rfl⟩
      · exact ⟨_, _, rfl, rfl⟩
      · rename_i button _
        unfold State.hostSample
        split <;> exact ⟨_, _, rfl, by cases button <;> rfl⟩
      · exact ⟨_, _, rfl, rfl⟩
  · exact ⟨_, _, rfl, rfl⟩

/-- The driver does what it has to do next (R103, R107, R108). -/
theorem hostStep_acts {s : State} {a : HostAction} {rest : List HostAction} (hd : s.host.driver = true)
    (ht : s.host.todo = a :: rest) : s.hostStep = State.hostAct a rest s := by
  unfold State.hostStep
  rw [if_pos hd, ht]

/-- With nothing left to do the driver begins the next polling cycle (R110). -/
theorem hostStep_loops {s : State} (hd : s.host.driver = true) (ht : s.host.todo = []) :
    s.hostStep = State.hostDoes (pollCycle s.params) s := by
  unfold State.hostStep
  rw [if_pos hd, ht]

/-- Everything the release of reset can do (R143). -/
theorem release_cases (s : State) :
    (s.tx.available = true ∧ s.release = { s with inReset := false }) ∨
    (s.tx.available = false ∧
      s.release = { s with inReset := false, fault := { cause := .resourceExhausted, info := 0 } }) := by
  unfold State.release State.initCheck
  cases s.tx.available <;> simp [State.recordFault]

/-- Everything a reset inside a run can do (R142, R144). -/
theorem warmReset_cases (s : State) :
    s.warmReset = { State.resetBlock s with
      rst := false, inReset := false,
      fault := { cause := if s.tx.available then .none else .resourceExhausted, info := 0 } } := by
  unfold State.warmReset State.release State.initCheck
  show (if s.tx.available then _ else _) = _
  cases s.tx.available <;> rfl

end Sys2Proof.Laws
end

