-- ==== Sys2Proof/Laws/PerInstr.lean ====
section
/-! SUPPORT. Statements made per instruction: the word of every term stands in its own row of the opcode map
and in no other (R55), whatever its operands. -/

namespace Sys2Proof.Laws

open Sys2Proof

/-- `encode i` matches exactly the row that bears the operation's name (R55). -/
def OwnOpcodeRow.Statement (i : Instr) : Prop :=
  ∀ row ∈ opRows, row.matchesWord (encode i) = (row.mnemonic == i.mnemonic)

theorem OwnOpcodeRow.map (x y : Nat) : OwnOpcodeRow.Statement (.map x y) := by
  have h : ∀ bx : BitVec 3, ∀ by' : BitVec 3, ∀ row ∈ opRows,
      (row.mask &&& (0x20000000#32 ||| (by'.setWidth 32 <<< 4) ||| bx.setWidth 32) == row.pattern)
        = (row.mnemonic == "MAP") := by decide
  intro row hr
  have := h (BitVec.ofNat 3 x) (BitVec.ofNat 3 y) row hr
  rw [BitVec.and_comm] at this
  exact this

theorem OwnOpcodeRow.set (index : Nat) (r g b : Byte) : OwnOpcodeRow.Statement (.set index r g b) := by
  have top : ∀ k, 29 ≤ k → k < 32 →
      (encode (.set index r g b)).getLsbD k = (0x40000000#32).getLsbD k := by
    intro k h1 h2
    obtain rfl | rfl | rfl : k = 29 ∨ k = 30 ∨ k = 31 := by omega
    all_goals simp [encode, operandBits]
  have hmask : encode (.set index r g b) &&& 0xE0000000#32 = 0x40000000#32 := by
    apply BitVec.eq_of_getLsbD_eq
    intro k hk
    by_cases h29 : 29 ≤ k
    · rw [BitVec.getLsbD_and, top k h29 hk]
      obtain rfl | rfl | rfl : k = 29 ∨ k = 30 ∨ k = 31 := by omega
      all_goals decide
    · have : ∀ k < 29, (0xE0000000#32).getLsbD k = false ∧ (0x40000000#32).getLsbD k = false := by decide
      simp [this k (by omega)]
  have other : ∀ m p : Word, m.getLsbD 30 = true → p.getLsbD 30 = false →
      (encode (.set index r g b) &&& m == p) = false := by
    intro m p hm hp
    rw [beq_eq_false_iff_ne]
    intro he
    have := congrArg (·.getLsbD 30) he
    simp only [BitVec.getLsbD_and, top 30 (by omega) (by omega), hm, hp] at this
    exact absurd this (by decide)
  have other31 : ∀ m p : Word, m.getLsbD 29 = true → p.getLsbD 29 = true →
      (encode (.set index r g b) &&& m == p) = false := by
    intro m p hm hp
    rw [beq_eq_false_iff_ne]
    intro he
    have := congrArg (·.getLsbD 29) he
    simp only [BitVec.getLsbD_and, top 29 (by omega) (by omega), hm, hp] at this
    exact absurd this (by decide)
  intro row hr
  simp only [opRows, List.mem_cons, List.not_mem_nil, or_false] at hr
  obtain rfl | rfl | rfl | rfl := hr
  · exact other _ _ (by decide) (by decide)
  · simp [OpRow.matchesWord, hmask, Instr.mnemonic]
  · exact other31 _ _ (by decide) (by decide)
  · exact other _ _ (by decide) (by decide)

theorem OwnOpcodeRow.clear : OwnOpcodeRow.Statement .clear := by
  unfold OwnOpcodeRow.Statement; decide

theorem OwnOpcodeRow.flush : OwnOpcodeRow.Statement .flush := by
  unfold OwnOpcodeRow.Statement; decide

end Sys2Proof.Laws
end

