-- ==== Sys2Proof/Laws/Run.lean ====
section
/-! SUPPORT. Runs of many steps, taken apart once: one step, several steps, and an invariant that every step
keeps holds after any run. -/

namespace Sys2Proof.Laws

open Sys2Proof.Machine Sys2Proof.Safety

theorem run_zero (s : State) : run 0 s = .next s := rfl

theorem run_step {n : Nat} {s t : State} (h : step s = .next t) : run (n + 1) s = run n t := by
  have hc : Sys2Proof.core.step s = .next t := h
  simp only [run, Host.Core.run, hc]
  rfl

/-- The first step of a run that ends in a next state. -/
theorem run_succ_next {n : Nat} {s u : State} (h : run (n + 1) s = .next u) :
    ∃ t, step s = .next t ∧ run n t = .next u := by
  cases hs : step s with
  | next t => exact ⟨t, rfl, by rw [run_step hs] at h; exact h⟩
  | fault r => cases r
  | refused r =>
    have hc : Sys2Proof.core.step s = .refused r := hs
    simp only [run, Host.Core.run, hc] at h
    cases h

theorem run_add {m n : Nat} {s t : State} (h : run m s = .next t) : run (m + n) s = run n t := by
  induction m generalizing s with
  | zero =>
    rw [run_zero] at h
    injection h with h
    rw [Nat.zero_add, h]
  | succ m ih =>
    obtain ⟨u, hu, hr⟩ := run_succ_next h
    rw [Nat.succ_add, run_step hu, ih hr]

/-- What every step keeps, every run keeps. -/
theorem run_keeps {P : State → Prop} (hstep : ∀ s t, P s → step s = .next t → P t) {n : Nat} {s t : State}
    (hs : P s) (h : run n s = .next t) : P t := by
  induction n generalizing s with
  | zero =>
    rw [run_zero] at h
    injection h with h
    exact h ▸ hs
  | succ n ih =>
    obtain ⟨u, hu, hr⟩ := run_succ_next h
    exact ih (hstep s u hs hu) hr

end Sys2Proof.Laws
end

