-- ==== Sys2Proof/Laws/Trace.lean ====
section
/-! SUPPORT. The trace read in two parts, the collaborator's answers one after another, and what a cycle of the
word level is, said once. -/

namespace Sys2Proof.Laws

open Sys2Proof.Machine Sys2Proof.Safety

/-! ### The trace -/

theorem frameScan_append {n m : Nat} {a b : List TxEvent} (h : frameScan n a = some m) :
    frameScan n (a ++ b) = frameScan m b := by
  induction a generalizing n with
  | nil =>
    cases h
    rfl
  | cons e a ih =>
    cases e <;> simp only [frameScan, List.cons_append] at h ⊢ <;> split at h <;> rename_i hc
    · rw [if_pos hc]
      exact ih h
    · cases h
    · rw [if_pos hc]
      exact ih h
    · cases h

theorem openBytes_append (c : List Byte) (a b : List TxEvent) :
    openBytes c (a ++ b) = openBytes (openBytes c a) b := by
  induction a generalizing c with
  | nil => rfl
  | cons e a ih => cases e <;> simp only [List.cons_append, openBytes, ih]

theorem openBytes_bytes (c l : List Byte) : openBytes c (l.map .byte) = c ++ l := by
  induction l generalizing c with
  | nil => simp [openBytes]
  | cons v l ih => simp only [List.map_cons, openBytes, ih, List.append_assoc, List.singleton_append]

theorem latch_append (c : List Byte) (shown : Option (List Pixel)) (a b : List TxEvent) :
    latch c shown (a ++ b) = latch (openBytes c a) (latch c shown a) b := by
  induction a generalizing c shown with
  | nil => rfl
  | cons e a ih => cases e <;> simp only [List.cons_append, openBytes, latch, ih]

/-- Bytes alone latch nothing (R21). -/
theorem latch_bytes (c : List Byte) (shown : Option (List Pixel)) (l : List Byte) :
    latch c shown (l.map .byte) = shown := by
  induction l generalizing c with
  | nil => rfl
  | cons v l ih => simp only [List.map_cons, latch, ih]

/-! ### The collaborator -/

theorem afterAnswers_succ (k : Nat) (c : Collaborator) :
    afterAnswers (k + 1) c = (afterAnswers k c).advance := by
  induction k generalizing c with
  | zero => rfl
  | succ k ih =>
    rw [afterAnswers, ih]
    rfl

theorem accepting_answer {n k : Nat} {c : Collaborator} (h : accepting n c = true) (hk : k < n) :
    (afterAnswers k c).answer = .accepted := by
  induction n generalizing k c with
  | zero => omega
  | succ n ih =>
    simp only [accepting, Bool.and_eq_true, beq_iff_eq] at h
    cases k with
    | zero => exact h.1
    | succ k => exact ih (c := c.advance) (k := k) h.2 (by omega)

theorem accepting_add {m n : Nat} {c : Collaborator} (h : accepting (m + n) c = true) :
    accepting m c = true ∧ accepting n (afterAnswers m c) = true := by
  induction m generalizing c with
  | zero =>
    rw [Nat.zero_add] at h
    exact ⟨rfl, h⟩
  | succ m ih =>
    simp only [Nat.succ_add, accepting, Bool.and_eq_true] at h
    simp only [accepting, Bool.and_eq_true]
    exact ⟨⟨h.1, (ih h.2).1⟩, (ih h.2).2⟩

/-! ### The settle timer -/

theorem afterSteps_succ (n : Nat) (c : SettleTimer) : afterSteps (n + 1) c = (afterSteps n c).advance := by
  induction n generalizing c with
  | zero => rfl
  | succ n ih =>
    rw [afterSteps, ih]
    rfl

/-- What a timer that fires after `n` steps does in each of them. -/
theorem fires_answer {n k : Nat} {c : SettleTimer} (h : fires n c = true) (hk : k ≤ n) :
    (afterSteps k c).answer = if k = n then .done else .running := by
  induction n generalizing k c with
  | zero =>
    obtain rfl : k = 0 := by omega
    simpa [fires, afterSteps] using h
  | succ n ih =>
    simp only [fires, Bool.and_eq_true, beq_iff_eq] at h
    cases k with
    | zero => simpa [afterSteps] using h.1
    | succ k => simpa [afterSteps] using ih (c := c.advance) (k := k) h.2 (by omega)

/-! ### A cycle of the word level -/

/-- Everything a cycle without reset does to the state, where no reset is being released (R64). -/
theorem cycle_running {p : Pins} {s : State} (hr : p.rst = false) (hi : s.inReset = false) :
    (cycle p s).1 = if p.giveRsp then State.deliver (blockCycle p s) else blockCycle p s := by
  unfold cycle releaseCycle
  simp only [hr, hi]
  cases p.giveRsp <;> rfl

/-- A cycle with reset (R142). -/
theorem cycle_reset {p : Pins} (s : State) (hr : p.rst = true) :
    (cycle p s).1 = { State.resetBlock s with inReset := true } := by
  unfold cycle
  rw [if_pos hr]

end Sys2Proof.Laws
end

