-- ==== Sys2Proof/Tests/Slice0.lean ====
section
/-! SUPPORT. The model's own tests: the well-formedness checks, words written out from the spec's formats and its
vectors (95_test_vectors.md), single steps, and for every statement with hypotheses a state that meets them. -/

namespace Sys2Proof.Tests

open Sys2Proof.Machine Sys2Proof.Safety

/-! ### States to test on -/

/-- Parameters with a value, so that a test can be evaluated. -/
def params : Params :=
  { txFallible := true, bitOrder := .msbFirst, axisA := .x, fClkHz := 30000, settleOverUs := 0, tDeadMs := 200,
    tIdleMs := 50 }

/-- The state after reset with these parameters and a transmitter. -/
def idle : State := State.launch params true

/-- `idle` with these words on offer. -/
def offering (ws : List Word) : State := { idle with cmds := ws }

/-- In a burst at byte `k`, the collaborator's next answer being `a`. -/
def bursting (k : Nat) (a : TxAnswer) : State :=
  { idle with txPhase := .burst, txPos := BitVec.ofNat 7 k, tx := { available := true, answers := [], rest := a } }

/-- In the settle. -/
def settling : State := { idle with txPhase := .settle, txPos := 75 }

/-- In a settle whose timer runs for `n` steps, then fires, or for ever. -/
def waiting (n : Nat) (rest : TimerAnswer) : State :=
  { settling with timer := { answers := List.replicate n .running, rest := rest } }

/-- Halted by an OutOfRange. -/
def halted : State := { idle with fault := { cause := .outOfRange, info := 0x59000000 } }

/-- The driver is about to do `todo`. -/
def driving (todo : List HostAction) : State := { idle with host := { idle.host with todo := todo } }

/-- Button A is held, the cursor is in the last column. -/
def pressing : State :=
  { idle with
    host := { cursor := ⟨4, 2⟩, driver := true, todo := [.sample .a, .sample .b],
              lineA := { levels := [], rest := false }, lineB := { levels := [], rest := true } } }

/-- Pins of a cycle in which nothing is offered. -/
def quietPins : Pins :=
  { rst := false, cmdValid := false, cmd := 0, txReady := false, txErr := false, txAvail := true, giveRsp := true }

/-- What an outcome holds. -/
def after (o : Host.Outcome State Fault Refusal) : State :=
  match o with
  | .next t => t
  | .fault _ => idle
  | .refused _ => idle

/-! ### Well-formedness (R54): one ill-formed term for each check -/

theorem test_wf_map_x : (Instr.map 8 0).wellFormed = false := by decide
theorem test_wf_map_y : (Instr.map 0 8).wellFormed = false := by decide
theorem test_wf_set_index : (Instr.set 32 0 0 0).wellFormed = false := by decide
theorem test_wf_not_in_range :
    (Instr.map 7 7).wellFormed = true ∧ (Instr.set 31 255 255 255).wellFormed = true := by decide

/-! ### Decoding, from the formats R51 to R53 and the vectors V-D1 to V-D18 -/

/-- V-D2 and V-D3, bit by bit: op 001, 22 reserved bits, yyy, a reserved bit, xxx. -/
theorem test_decode_map :
    decode 0b001_0000000000000000000000_001_0_100#32 = some (.map 4 1) ∧
    decode 0b001_0000000000000000000000_111_0_111#32 = some (.map 7 7) := by decide

/-- V-D8 and V-D9: op 010, iiiii, then the channels. -/
theorem test_decode_set :
    decode 0b010_00000_00001010_00010100_00011110#32 = some (.set 0 10 20 30) ∧
    decode 0b010_11000_00000001_00000010_00000011#32 = some (.set 24 1 2 3) := by decide

/-- V-D12 and V-D14. -/
theorem test_decode_no_operand :
    decode 0b011_00000000000000000000000000000#32 = some .clear ∧
    decode 0b100_00000000000000000000000000000#32 = some .flush := by decide

/-- V-D4 to V-D6, V-D13, V-D15 to V-D18. -/
theorem test_decode_illegal :
    [0x20000008#32, 0x20000080#32, 0x30000000#32, 0x60000001#32, 0x90000000#32, 0#32, 0xFFFFFFFF#32,
      0xA0000000#32, 0xC0000000#32].all (fun w => (decode w).isNone) = true := by decide

theorem test_encode :
    encode (.map 4 1) = 0x20000014#32 ∧ encode (.set 0 10 20 30) = 0x400A141E#32 ∧
    encode .clear = 0x60000000#32 ∧ encode .flush = 0x80000000#32 := by decide

/-- The opcode table's numbering is the command word's. -/
theorem test_decodeTableWord :
    decodeTableWord 32 0x47123456 = some (.set 7 0x12 0x34 0x56) ∧ decodeTableWord 32 0 = none := by decide

/-- A word placed by `withFetchWord` is the next one run, from reset on. -/
theorem test_withFetchWord :
    (after (step (State.reset.withFetchWord 32 0x20000014))).rsp = some 0x005#9 := by decide

/-! ### One step of each operation -/

/-- V-M1: `(2,2)` is 12, `(3,3)` is 16, `(0,1)` is 9, `(4,4)` is 24 (E8). -/
theorem test_map_table :
    [(2, 2), (3, 3), (0, 1), (4, 4)].map (fun c => (after (exec (.map c.1 c.2) idle)).rsp) =
      [some 0x00C#9, some 0x010#9, some 0x009#9, some 0x018#9] := by decide

/-- V-M3: not the value 25. -/
theorem test_map_out_of_range :
    (after (exec (.map 0 5) idle)).rsp = some 0x101#9 ∧
    (after (exec (.map 0 5) idle)).fault = { cause := .outOfRange, info := 0x20000050 } := by decide

/-- V-S2: Pixel 24 red 1, green 2, blue 3; Pixel 23 stays black. -/
theorem test_set_last_pixel :
    Memory.pixel (after (exec (.set 24 1 2 3) idle)).mem 24 = ⟨1, 2, 3⟩ ∧
    Memory.pixel (after (exec (.set 24 1 2 3) idle)).mem 23 = ⟨0, 0, 0⟩ := by decide

/-- V-S7: nothing is written. -/
theorem test_set_out_of_range :
    (after (exec (.set 25 1 1 1) idle)).mem = [] ∧
    (after (exec (.set 25 0 0 0) idle)).fault.info = 0x59000000 := by decide

/-- CLEAR after a SET leaves the memory in its canonical empty form (V-S5). -/
theorem test_clear_after_set : (after (exec .clear (after (exec (.set 7 1 0 3) idle)))).mem = [] := by decide

/-- The start of V-F3: BURST, byte 0, no response yet. -/
theorem test_flush_starts :
    (after (exec .flush idle)).txPhase = .burst ∧ (after (exec .flush idle)).rsp = none := by decide

/-- E4: byte 0 of a Pixel (10, 20, 30) is its green, 20. -/
theorem test_flush_first_byte :
    (after (step (after (exec .flush (after (exec (.set 0 10 20 30) idle)))))).trace = [.byte 20] := by decide

/-- V-X4: after the first fault a legal command gets the same error and does nothing. -/
theorem test_halted_set :
    (after (exec (.set 0 255 255 255) halted)).mem = [] ∧
    (after (exec (.set 0 255 255 255) halted)).rsp = some 0x101#9 := by decide

/-- V-X2 and V-X3. -/
theorem test_illegal_word :
    (after (step (offering [0]))).rsp = some 0x104#9 ∧
    (after (step (offering [0x20000078]))).fault = { cause := .illegalCommand, info := 0x20000078 } := by decide

/-- V-H1. -/
theorem test_moves :
    Cursor.moveX ⟨4, 2⟩ = ⟨0, 2⟩ ∧ Cursor.moveY ⟨2, 4⟩ = ⟨2, 0⟩ ∧
    Cursor.moveY (Cursor.moveX ⟨4, 4⟩) = ⟨0, 0⟩ := by decide

/-- V-F6: Pixel (0x12, 0x34, 0x56) is `34 12 56` on the wire. -/
theorem test_frame_bytes :
    ((frame (after (exec (.set 7 0x12 0x34 0x56) idle)).mem).drop 21).take 3 = [0x34, 0x12, 0x56] := by decide

/-- The constants of R7: a byte's range, and each channel once in the wire order. -/
theorem test_channel_constants :
    Config.chMin = 0 ∧ Config.chMax + 1 = 2 ^ 8 ∧
    (Pixel.mk 10 20 30).channel <$> Config.wireOrder = [20, 10, 30] := by decide

theorem test_frame_is_25_pixels : Config.frameBytes = Config.ledCount * Config.channels := by decide

/-! ### Every statement's hypotheses are met somewhere; each clause at a boundary -/

theorem test_DecoderAndEncoderAreInverse_met :
    (7 < 8 ∧ 31 < 32) ∧ (Instr.map 7 7).wellFormed = true ∧ (Instr.set 31 255 255 255).wellFormed = true ∧
    decode 0x20000077#32 = some (.map 7 7) ∧ decode 0x5FFFFFFF#32 = some (.set 31 255 255 255) := by decide

theorem test_OpcodeRowsDecide_met :
    opRows.length = 4 ∧ opRows.all (fun row => row.matchesWord row.pattern) = true := by decide

theorem test_IllegalWordsRaiseIllegalCommand_met :
    [0x1FFFFFFF#32, 0xA0000000#32, 0x20000008#32, 0x20000080#32, 0x60000001#32, 0x90000000#32].all (fun w =>
      quiet (offering [w]) && ready (offering [w]) && (decode w).isNone) = true := by decide

theorem test_StepRunsTheDecodedCommand_met :
    quiet (offering [0x20000014]) = true ∧ (offering [0x20000014]).cmdReady = true ∧
    decode 0x20000014#32 = some (.map 4 1) ∧
    quiet halted = true ∧ halted.cmdReady = true ∧ decodeTableWord 32 0x80000000 = some .flush := by decide

theorem test_BusyBlockKeepsTheCommandWaiting_met :
    (bursting 3 .silent).cmdReady = false ∧ (bursting 3 .silent).txPhase ≠ .idle ∧
    (bursting 3 .silent).faulted = false ∧ settling.cmdReady = false := by decide

theorem test_MapAnswersTheIndex_met :
    ready idle = true ∧ (Instr.map 4 4).wellFormed = true ∧ (Instr.map 5 0).wellFormed = true := by decide

theorem test_MapOutOfRangeRaises_met :
    ready idle = true ∧ (Instr.map 5 0).wellFormed = true ∧ (Instr.map 0 5).wellFormed = true ∧
    (Instr.map 7 7).wellFormed = true := by decide

theorem test_MappingIsABijection_met :
    mapIndex 0 0 = 0 ∧ mapIndex 4 4 = 24 ∧ mapInverse 0 = (0, 0) ∧ mapInverse 24 = (4, 4) := by decide

theorem test_SerpentineProperty_met :
    mapIndex 4 4 = 24 ∧ mapIndex 3 4 = 23 ∧ mapIndex 4 3 = 15 ∧ mapIndex 3 3 = 16 := by decide

/-- Row 4 is 20 to 24; column 4 is 4, 5, 14, 15, 24. -/
theorem test_RowsAndColumns_met :
    (mapInverse 20).2 = 4 ∧ (mapInverse 24).2 = 4 ∧ (mapInverse 19).2 = 3 ∧
    (List.range 5).map (mapIndex 4) = [4, 5, 14, 15, 24] := by decide

theorem test_WideMappingIsInjective_met : 2 < 3 ∧ mapIndexWide 3 2 1 = 3 ∧ mapIndexWide 3 0 1 = 5 := by decide

theorem test_SetWritesOnePixel_met :
    ready idle = true ∧ Memory.wf idle.mem = true ∧ 24 ≤ 24 ∧ 24 < 25 ∧ 31 < 32 := by decide

theorem test_ClearBlackensEveryPixel_met : ready idle = true ∧ Memory.wf idle.mem = true := by decide

theorem test_ClearThenSetLightsOnePixel_met :
    ready idle = true ∧ Memory.wf idle.mem = true ∧ ((1 : Byte), (2 : Byte), (3 : Byte)) ≠ (0, 0, 0) := by decide

theorem test_WritesAreIdempotent_met :
    ready idle = true ∧ Memory.wf idle.mem = true ∧
    Instr.set 25 0 0 0 = Instr.set 25 0 0 0 := by decide

theorem test_SetsOfDistinctPixelsCommute_met :
    ready idle = true ∧ Memory.wf idle.mem = true ∧ (0 ≤ 24 ∧ 24 ≤ 24 ∧ 0 ≠ 24) := by decide

theorem test_OnlySetAndClearWriteThePixelBuffer_met :
    ∃ t, step (offering [0x400A141E]) = .next t ∧ (offering [0x400A141E]).rst = false ∧
      t.mem ≠ (offering [0x400A141E]).mem := ⟨_, rfl, by decide⟩

theorem test_FlushStartsABurst_met : ready idle = true := by decide

theorem test_AcceptedByteAdvancesTheBurst_met :
    [0, 73, 74].all (fun k => quiet (bursting k .accepted) && (bursting k .accepted).txPhase == .burst &&
      !(bursting k .accepted).faulted && decide ((bursting k .accepted).txPos.toNat ≤ 74) &&
      (bursting k .accepted).tx.answer == .accepted) = true := by decide

/-- The clause for `TX_FALLIBLE` true, the one for false, and the last one (in a state no run reaches). -/
theorem test_RefusedByteRaisesIoFailure_met :
    (quiet (bursting 74 .failed) = true ∧ (bursting 74 .failed).txPhase = .burst ∧
      (bursting 74 .failed).faulted = false ∧ (bursting 74 .failed).tx.answer = .failed ∧
      (bursting 74 .failed).params.txFallible = true) ∧
    ({ bursting 74 .failed with params := { params with txFallible := false } }).params.txFallible = false ∧
    ∃ t, step { driving [] with
        params := { params with txFallible := false }, fault := { cause := .ioFailure, info := 0 } } = .next t ∧
      t.fault.cause = .ioFailure := ⟨by decide, by decide, _, rfl, by decide⟩

theorem test_SettleDoneCompletesTheFlush_met :
    (quiet settling = true ∧ settling.txPhase = .settle ∧ settling.faulted = false ∧
      settling.timer.answer = .done) ∧
    quiet (waiting 2 .done) = true ∧ (waiting 2 .done).txPhase = .settle ∧ (waiting 2 .done).faulted = false ∧
    (waiting 2 .done).timer.answer = .running := by decide

theorem test_UnansweredBurstIsStuckForever_met :
    quiet (bursting 10 .silent) = true ∧ (bursting 10 .silent).txPhase = .burst ∧
    (bursting 10 .silent).faulted = false ∧ (bursting 10 .silent).tx.answers = [] ∧
    (bursting 10 .silent).tx.rest = .silent := by decide

theorem test_ResetLiftsAStuckBurst_met :
    ({ bursting 10 .silent with rst := true }).rst = true ∧
    ({ bursting 10 .silent with rst := true }).tx.available = true := by decide

theorem test_FrameLayout_met : (frame idle.mem).length = 75 ∧ 74 < 75 ∧ 24 < 25 := by decide

theorem test_FlushRunsToCompletion_met :
    quiet idle = true ∧ ready idle = true ∧ accepting 75 idle.tx = true ∧ fires 0 idle.timer = true ∧
    fires 2 (waiting 2 .done).timer = true := by decide

/-- The first byte refused, and the last. -/
theorem test_FlushFaultsAtTheRefusedByte_met :
    [0, 74].all (fun k =>
      let s := { idle with
        tx := { available := true, answers := List.replicate k .accepted ++ [.failed], rest := .silent } }
      quiet s && ready s && s.params.txFallible && accepting k s.tx &&
        (afterAnswers k s.tx).answer == .failed) = true := by decide

theorem test_FlushTwiceSendsTheSameFrameTwice_met :
    quiet (offering [0x80000000, 0x80000000]) = true ∧ ready (offering [0x80000000, 0x80000000]) = true ∧
    encode .flush = 0x80000000#32 ∧ accepting 150 (offering [0x80000000, 0x80000000]).tx = true ∧
    fires 0 (offering [0x80000000, 0x80000000]).timer = true ∧
    fires 0 (afterSteps 1 (offering [0x80000000, 0x80000000]).timer) = true ∧
    inv (offering [0x80000000, 0x80000000]) = true :=
  ⟨by decide, by decide, by decide, rfl, by decide, by decide, by decide⟩

theorem test_FlushLeavesThePixelBuffer_met :
    (∃ t, exec .flush idle = .next t) ∧
    (∃ t, step (bursting 0 .accepted) = .next t ∧ (bursting 0 .accepted).mover = .collaborator) ∧
    (∃ t, step settling = .next t ∧ settling.mover = .timer) :=
  ⟨⟨_, rfl⟩, ⟨_, rfl, by decide⟩, ⟨_, rfl, by decide⟩⟩

/-- The three ways the phase changes. -/
theorem test_OnlyFlushChangesThePhase_met :
    [offering [0x80000000], bursting 74 .accepted, settling].all (fun s =>
      !s.rst && (after (step s)).txPhase != s.txPhase) = true := by decide

theorem test_DisplayIsTheBufferAfterAFlush_met :
    (quiet idle = true ∧ ready idle = true ∧ inv idle = true ∧ idle.warm = false) ∧
    accepting 75 idle.tx = true ∧ fires 0 idle.timer = true ∧ ∃ t, exec .flush idle = .next t :=
  ⟨by decide, by decide, by decide, _, rfl⟩

theorem test_DisplayChangesOnlyWhenASettleEnds_met :
    ∃ t, step (offering [0x60000000]) = .next t ∧ (offering [0x60000000]).rst = false ∧
      (offering [0x60000000]).inReset = false ∧ (offering [0x60000000]).settling = false ∧
      t.fault.cause ≠ .ioFailure := ⟨_, rfl, by decide⟩

theorem test_FaultedBlockIsHalted_met :
    (halted.faulted = true ∧ halted.owed = none ∧ halted.rst = false ∧ halted.inReset = false) ∧
    ∃ t, step halted = .next t := ⟨by decide, _, rfl⟩

/-- An illegal word, one out of range for MAP and for SET, and one that raises nothing. -/
theorem test_FaultsFollowTheOrderOfChecks_met :
    [0#32, 0x20000005#32, 0x59000000#32, 0x20000044#32].map (fun w =>
      (quiet (offering [w]) && ready (offering [w]), (after (step (offering [w]))).fault.cause)) =
      [(true, .illegalCommand), (true, .outOfRange), (true, .outOfRange), (true, .none)] := by decide

/-- Each kind of fault register explains itself and is kept by a step. -/
theorem test_StepKeepsTheFaultExplained_met :
    [idle, halted, State.launch params false, bursting 4 .failed].all (fun s =>
      faultExplained s && faultExplained (after (step s))) = true := by decide

theorem test_StepKeepsTheResponsesLegal_met :
    rspsLegal { idle with rsps := [0x018#9, 0x104#9] } = true ∧
    ∃ t, step { idle with rsps := [0x018#9, 0x104#9] } = .next t := ⟨by decide, _, rfl⟩

theorem test_ResetState_met : (State.launch params false).faulted = true ∧ 24 < 25 := by decide

theorem test_WarmResetForgetsEverything_met :
    ({ bursting 10 .silent with rst := true }).rst = true ∧
    ({ bursting 10 .silent with rst := true }).inReset = false ∧
    ∃ t, step { idle with warm := true } = .next t := ⟨by decide, by decide, _, rfl⟩

theorem test_StepKeepsTheBlockInvariant_met :
    (blockOk idle = true ∧ blockOk (bursting 74 .accepted) = true ∧ blockOk settling = true) ∧
    (∃ t, step (bursting 74 .accepted) = .next t) ∧
    faultExplained (after (step (bursting 4 .failed))) = true ∧
    (after (step (bursting 4 .failed))).fault.cause = .ioFailure := ⟨by decide, ⟨_, rfl⟩, by decide⟩

theorem test_StepKeepsTheTraceFramed_met :
    blockOk idle = true ∧ traceFramed idle = true ∧ ∃ t, step idle = .next t := ⟨by decide, by decide, _, rfl⟩

theorem test_StepKeepsTheBurstFaithful_met :
    blockOk { bursting 1 .accepted with trace := [.byte 0] } = true ∧
    burstFaithful { bursting 1 .accepted with trace := [.byte 0] } = true ∧
    ∃ t, step { bursting 1 .accepted with trace := [.byte 0] } = .next t := ⟨by decide, by decide, _, rfl⟩

/-- The cursor moves by a pressed sample and by the driver's entry point. -/
theorem test_CursorStaysOnTheGrid_met :
    (cursorOk pressing = true ∧ pressing.rst = false) ∧
    (∃ t, step pressing = .next t ∧ t.host.cursor ≠ pressing.host.cursor) ∧
    ∃ t, step { pressing with host := { pressing.host with todo := [.boot] } } = .next t ∧
      t.host.cursor ≠ pressing.host.cursor := ⟨by decide, ⟨_, rfl, by decide⟩, ⟨_, rfl, by decide⟩⟩

theorem test_ParametersNeverChange_met : ∃ t, step idle = .next t := ⟨_, rfl⟩

theorem test_TheTwoMoves_met :
    (∃ t, step pressing = .next t ∧ t.host.cursor = ⟨0, 2⟩) ∧ pressing.rst = false ∧
    pressing.host.todo.head? ≠ some .boot := ⟨⟨_, rfl, by decide⟩, by decide⟩

/-- A pressed sample, and one that is not. -/
theorem test_SamplesMoveAndRedraw_met :
    (quiet pressing = true ∧ pressing.cmdReady = true ∧ pressing.cmds = [] ∧ pressing.host.driver = true) ∧
    pressing.host.todo = .sample .a :: [.sample .b] ∧ Line.level (HostState.line pressing.host .a) = false ∧
    Line.level (HostState.line pressing.host .b) = true := by decide

theorem test_RedrawLightsTheCursor_met :
    (quiet (driving redraw) = true ∧ ready (driving redraw) = true ∧ (driving redraw).cmds = []) ∧
    (driving redraw).host.todo = redraw ++ [] ∧ (driving redraw).host.driver = true ∧
    inv (driving redraw) = true ∧ accepting 75 (driving redraw).tx = true ∧
    fires 0 (driving redraw).timer = true ∧ (driving redraw).warm = false := by
  decide

theorem test_EveryCursorReachesEveryOther_met :
    (4 < 5 ∧ (0 + 5 - 4) % 5 = 1) ∧ Cursor.moveX ⟨4, 4⟩ = ⟨0, 4⟩ := by decide

theorem test_RedrawIsAtomicForTheObserver_met :
    (quiet (driving (redraw ++ [.wait 50])) = true ∧ ready (driving (redraw ++ [.wait 50])) = true) ∧
    (driving (redraw ++ [.wait 50])).host.driver = true ∧ inv (driving (redraw ++ [.wait 50])) = true ∧
    (driving (redraw ++ [.wait 50])).warm = false ∧
    accepting 75 (driving (redraw ++ [.wait 50])).tx = true ∧
    fires 0 (driving (redraw ++ [.wait 50])).timer = true ∧ 83 ≤ 83 + 0 := by decide

/-- A step; the end of a polling cycle; a reset; and each action, the SET with an index and without. -/
theorem test_DriverNeverEnds_met :
    (∃ t, step (driving []) = .next t ∧ t.host.todo.length = 3) ∧
    (quiet (driving []) = true ∧ (driving []).cmdReady = true ∧ (driving []).cmds = [] ∧
      (driving []).host.driver = true) ∧
    (∃ t, step { driving [] with rst := true } = .next t ∧ t.host.todo = [.boot]) ∧
    (after (step { driving [.set, .flush] with rsp := some 0x018#9 })).cmds = [0x58FFFFFF#32] ∧
    (after (step { driving [.set, .flush] with rsp := some 0x101#9 })).cmds = [] ∧
    (after (step { driving [.set, .flush] with rsp := some 0x101#9 })).host.todo = [.flush] :=
  ⟨⟨_, rfl, by decide⟩, by decide, ⟨_, rfl, by decide⟩, by decide, by decide, by decide⟩

/-- All seven clauses: accepted, refused, held, last settle cycle, earlier settle cycle, a command, nothing. -/
theorem test_CyclesRefineSteps_met :
    (quietPins.rst = false ∧ quietPins.giveRsp = true) ∧
    (quiet (bursting 0 .silent) = true ∧ (bursting 0 .silent).txValid = true ∧
      (bursting 0 .silent).params.txFallible = true) ∧
    (quiet settling = true ∧ settling.settling = true ∧ settling.settleCount + 1 < settling.params.nSettle ∧
      settling.params.nSettle ≤ { settling with settleCount := 2 }.settleCount + 1) ∧
    quiet idle = true ∧ idle.cmdReady = true := by decide

/-- Three settle cycles at 100 microseconds and 30 kHz: two keep the phase, the third ends it. -/
theorem test_SettleLastsItsCycles_met :
    settling.settling = true ∧ settling.settleCount = 0 ∧ settling.inReset = false ∧ settling.owed = none ∧
    settling.params.nSettle = 3 ∧ (runCycles [quietPins, quietPins] settling).txPhase = .settle ∧
    (runCycles [quietPins, quietPins, quietPins] settling).txPhase = .idle := by decide

/-- The release with and without a transmitter. -/
theorem test_ResetCyclesAndRelease_met :
    ({ quietPins with rst := true }).rst = true ∧ quietPins.rst = false ∧ quietPins.cmdValid = false ∧
    quietPins.txAvail = true ∧ ({ quietPins with txAvail := false }).txAvail = false := by decide

theorem test_BurstHasNoIdleCycle_met :
    (({ quietPins with cmdValid := true, cmd := 0x80000000 }).cmdValid = true ∧
      decode 0x80000000#32 = some .flush ∧ idle.inReset = false ∧ ready idle = true) ∧
    ({ quietPins with txReady := true }).txReady = true ∧ quietPins.txErr = false ∧
    (bursting 73 .silent).inReset = false ∧ (bursting 73 .silent).txValid = true ∧
    (bursting 73 .silent).txPos.toNat < 74 := by decide

theorem test_UnfiredSettleIsStuckForever_met :
    quiet (waiting 0 .running) = true ∧ (waiting 0 .running).txPhase = .settle ∧
    (waiting 0 .running).faulted = false ∧ (waiting 0 .running).timer.answers = [] ∧
    (waiting 0 .running).timer.rest = .running := by decide

end Sys2Proof.Tests
end

/-! ## The launch parameters (R7, R8)

What each agent's step leaves of `State.params`, and from it O46. -/

namespace Sys2Proof.Proofs

open Sys2Proof.Machine Sys2Proof.Safety Sys2Proof.Laws

/-! ### What a command does -/

@[simp] theorem answered_params (s : State) (r : Rsp) : (answered s r).params = s.params := rfl

@[simp] theorem raised_params (c : Cause) (info : Word) (s : State) :
    (raised c info s).params = s.params := rfl

theorem executes_params {i : Instr} {s t : State} (h : Executes i s t) : t.params = s.params := by
  cases i with
  | map x y => obtain ⟨-, rfl⟩ | ⟨-, rfl⟩ := h <;> simp
  | set k r g b => obtain ⟨-, m, rfl, -⟩ | ⟨-, rfl⟩ := h <;> simp
  | clear =>
    obtain ⟨m, rfl, -⟩ := h
    simp
  | flush => rw [show t = _ from h]

theorem exec_params {i : Instr} {s t : State} (h : exec i s = .next t) : t.params = s.params := by
  obtain ⟨-, rfl⟩ | ⟨-, -, rfl⟩ | ⟨-, he⟩ := exec_cases h
  · rfl
  · simp
  · exact executes_params he

theorem execIllegal_params {w : Word} {s t : State} (h : execIllegal w s = .next t) :
    t.params = s.params := by
  obtain ⟨-, rfl⟩ | ⟨-, -, rfl⟩ | ⟨-, rfl⟩ := execIllegal_cases h <;> simp

/-! ### What the other agents do -/

@[simp] theorem warmReset_params (s : State) : s.warmReset.params = s.params := by
  simp [warmReset_cases]

@[simp] theorem release_params (s : State) : s.release.params = s.params := by
  obtain ⟨-, h⟩ | ⟨-, h⟩ := release_cases s <;> simp [h]

@[simp] theorem collaboratorStep_params (s : State) : s.collaboratorStep.params = s.params := by
  obtain ⟨-, h⟩ | ⟨-, -, h⟩ | ⟨-, -, h⟩ := collaboratorStep_cases s <;> simp [h]

@[simp] theorem timerStep_params (s : State) : s.timerStep.params = s.params := by
  obtain ⟨-, h⟩ | ⟨-, h⟩ := timerStep_cases s <;> simp [h]

@[simp] theorem hostStep_params (s : State) : s.hostStep.params = s.params := by
  obtain ⟨cmds, host, h, -⟩ := hostStep_frame s
  simp [h]

/-! ### Every step -/

/-- Settles O46: whichever agent moves (`step_next`), its step keeps the launch parameters. -/
theorem parametersNeverChange : Obligations.ParametersNeverChange := by
  intro s t hstep
  obtain ⟨-, rfl⟩ | ⟨-, rfl⟩ | ⟨-, rfl⟩ | ⟨-, rfl⟩ | ⟨-, rfl⟩ | ⟨-, rfl⟩ |
    ⟨w, i, -, -, hexec⟩ | ⟨w, -, -, hexec⟩ := step_next hstep
  · exact warmReset_params s
  · exact release_params s
  · exact collaboratorStep_params s
  · exact timerStep_params s
  · exact deliver_params s
  · exact hostStep_params s
  · exact exec_params hexec
  · exact execIllegal_params hexec

end Sys2Proof.Proofs

/-! ## The block's state (R13, R15, R17, R28)

What a step can do to the block is said once (`step_block`), and what it leaves of each field of the block
follows from that: O42, O19 and O31. -/

namespace Sys2Proof.Proofs

open Sys2Proof.Machine Sys2Proof.Safety Sys2Proof.Laws

/-! ### An answered and a raised command, field by field -/

section
variable (s : State) (r : Rsp) (c : Cause) (info : Word)

@[simp] theorem answered_mem : (answered s r).mem = s.mem := rfl
@[simp] theorem answered_txPhase : (answered s r).txPhase = s.txPhase := rfl
@[simp] theorem answered_txPos : (answered s r).txPos = s.txPos := rfl
@[simp] theorem answered_fault : (answered s r).fault = s.fault := rfl
@[simp] theorem answered_trace : (answered s r).trace = s.trace := rfl
@[simp] theorem answered_warm : (answered s r).warm = s.warm := rfl

@[simp] theorem raised_mem : (raised c info s).mem = s.mem := rfl
@[simp] theorem raised_txPhase : (raised c info s).txPhase = s.txPhase := rfl
@[simp] theorem raised_txPos : (raised c info s).txPos = s.txPos := rfl
@[simp] theorem raised_fault : (raised c info s).fault = { cause := c, info := info } := rfl
@[simp] theorem raised_trace : (raised c info s).trace = s.trace := rfl
@[simp] theorem raised_warm : (raised c info s).warm = s.warm := rfl

end

/-! ### The whole step, seen from the block -/

theorem sameBlock_refl (s : State) : sameBlock s s := ⟨rfl, rfl, rfl, rfl, rfl⟩

theorem sameBlock_answered (s : State) (r : Rsp) : sameBlock s (answered s r) := ⟨rfl, rfl, rfl, rfl, rfl⟩

theorem sameBlock_deliver (s : State) : sameBlock s s.deliver := ⟨rfl, rfl, rfl, rfl, rfl⟩

theorem sameBlock_hostStep (s : State) : sameBlock s s.hostStep := by
  obtain ⟨cmds, host, h, -⟩ := hostStep_frame s
  rw [h]
  exact ⟨rfl, rfl, rfl, rfl, rfl⟩

theorem hostStep_warm (s : State) : s.hostStep.warm = s.warm := by
  obtain ⟨cmds, host, h, -⟩ := hostStep_frame s
  rw [h]

/-- A command that the block does not execute, since it is busy or faulted, leaves the block as it was. -/
theorem exec_block {i : Instr} {s t : State} (h : exec i s = .next t) :
    (sameBlock s t ∧ t.warm = s.warm) ∨ (ready s = true ∧ Executes i s t) := by
  obtain ⟨-, rfl⟩ | ⟨-, -, rfl⟩ | he := exec_cases h
  · exact .inl ⟨sameBlock_refl _, rfl⟩
  · exact .inl ⟨sameBlock_answered _ _, rfl⟩
  · exact .inr he

theorem execIllegal_block {w : Word} {s t : State} (h : execIllegal w s = .next t) :
    (sameBlock s t ∧ t.warm = s.warm) ∨ (ready s = true ∧ t = raised .illegalCommand w s) := by
  obtain ⟨-, rfl⟩ | ⟨-, -, rfl⟩ | he := execIllegal_cases h
  · exact .inl ⟨sameBlock_refl _, rfl⟩
  · exact .inl ⟨sameBlock_answered _ _, rfl⟩
  · exact .inr he

/-- What a step can do to the block, by its cause: a reset or its release, a step of the collaborator or of the
settle timer, a command executed, an illegal word raised; every other step leaves the block as it was. -/
inductive BlockStep (s : State) : State → Prop where
  | reset (hm : s.mover = .reset) : BlockStep s s.warmReset
  | release (hm : s.mover = .release) : BlockStep s s.release
  | collaborator (hm : s.mover = .collaborator) : BlockStep s s.collaboratorStep
  | timer (hm : s.mover = .timer) : BlockStep s s.timerStep
  | executed {t : State} {w : Word} {i : Instr} (hm : s.mover = .command w) (hd : decode w = some i)
      (hr : ready s = true) (he : Executes i s t) : BlockStep s t
  | illegal (w : Word) (hr : ready s = true) : BlockStep s (raised .illegalCommand w s)
  | unchanged {t : State} (hb : sameBlock s t) (hw : t.warm = s.warm) : BlockStep s t

/-- Everything a step can do to the block. -/
theorem step_block {s t : State} (h : step s = .next t) : BlockStep s t := by
  obtain ⟨hm, rfl⟩ | ⟨hm, rfl⟩ | ⟨hm, rfl⟩ | ⟨hm, rfl⟩ | ⟨-, rfl⟩ | ⟨-, rfl⟩ |
    ⟨w, i, hm, hd, hexec⟩ | ⟨w, -, -, hexec⟩ := step_next h
  · exact .reset hm
  · exact .release hm
  · exact .collaborator hm
  · exact .timer hm
  · exact .unchanged (sameBlock_deliver s) rfl
  · exact .unchanged (sameBlock_hostStep s) (hostStep_warm s)
  · obtain ⟨hb, hw⟩ | ⟨hr, he⟩ := exec_block hexec
    · exact .unchanged hb hw
    · exact .executed hm hd hr he
  · obtain ⟨hb, hw⟩ | ⟨hr, rfl⟩ := execIllegal_block hexec
    · exact .unchanged hb hw
    · exact .illegal w hr

theorem ready_not_faulted {s : State} (h : ready s = true) : s.faulted = false := by
  obtain ⟨-, -, hf⟩ := (ready_iff s).1 h
  exact hf

theorem mover_ne_reset {s : State} (h : s.rst = false) : s.mover ≠ .reset := by
  intro hm
  have hr : s.rst = true := (mover_says s).1 hm
  simp [h] at hr

/-! ### The PixelBuffer -/

@[simp] theorem release_mem (s : State) : s.release.mem = s.mem := by
  obtain ⟨-, h⟩ | ⟨-, h⟩ := release_cases s <;> simp [h]

@[simp] theorem collaboratorStep_mem (s : State) : s.collaboratorStep.mem = s.mem := by
  obtain ⟨-, h⟩ | ⟨-, -, h⟩ | ⟨-, -, h⟩ := collaboratorStep_cases s <;> simp [h]

@[simp] theorem timerStep_mem (s : State) : s.timerStep.mem = s.mem := by
  obtain ⟨-, h⟩ | ⟨-, h⟩ := timerStep_cases s <;> simp [h]

/-- A command that is executed writes the PixelBuffer only if it is a CLEAR or a SET in range. -/
theorem executes_mem {i : Instr} {s t : State} (h : Executes i s t) :
    t.mem = s.mem ∨ (i = .clear ∧ ClearMem s.mem t.mem) ∨
      ∃ k r g b, i = .set k r g b ∧ k < 25 ∧ SetMem k ⟨r, g, b⟩ s.mem t.mem := by
  cases i with
  | map x y => obtain ⟨-, rfl⟩ | ⟨-, rfl⟩ := h <;> simp
  | set k r g b =>
    obtain ⟨hk, m, rfl, hm⟩ | ⟨-, rfl⟩ := h
    · exact .inr (.inr ⟨k, r, g, b, rfl, (indexInRange_iff k).1 hk, hm⟩)
    · simp
  | clear =>
    obtain ⟨m, rfl, hm⟩ := h
    exact .inr (.inl ⟨rfl, hm⟩)
  | flush => exact .inl (by rw [show t = _ from h])

theorem executes_wf {i : Instr} {s t : State} (h : Executes i s t) (hw : Memory.wf s.mem = true) :
    Memory.wf t.mem = true := by
  obtain hm | ⟨-, hwf, -⟩ | ⟨k, r, g, b, -, -, hwf, -⟩ := executes_mem h
  · rwa [hm]
  · exact (hwf hw).1
  · exact (hwf hw).1

theorem step_keeps_wf {s t : State} (hw : Memory.wf s.mem = true) (h : step s = .next t) :
    Memory.wf t.mem = true := by
  cases step_block h with
  | reset =>
    rw [warmReset_cases]
    rfl
  | release => simpa using hw
  | collaborator => simpa using hw
  | timer => simpa using hw
  | executed _ _ _ he => exact executes_wf he hw
  | illegal => simpa using hw
  | unchanged hb =>
    obtain ⟨hmem, -⟩ := hb
    rwa [hmem]

/-! ### The phase and the position -/

/-- R28, case by case. -/
theorem phaseOk_iff (s : State) :
    phaseOk s = true ↔
      (s.txPhase = .idle → s.txPos = 0) ∧ (s.txPhase = .burst → s.txPos.toNat ≤ 74) ∧
      (s.txPhase = .settle → s.txPos.toNat = 75) := by
  unfold phaseOk
  cases hp : s.txPhase with
  | idle => simp
  | burst => simp
  | settle => simp [BitVec.toNat_eq]

/-- `TXPHASE` and `TXPOS` are all that R28's agreement speaks of. -/
theorem phaseOk_of_same {s t : State} (hp : phaseOk s = true) (hphase : t.txPhase = s.txPhase)
    (hpos : t.txPos = s.txPos) : phaseOk t = true := by
  simpa only [phaseOk, hphase, hpos] using hp

@[simp] theorem release_txPhase (s : State) : s.release.txPhase = s.txPhase := by
  obtain ⟨-, h⟩ | ⟨-, h⟩ := release_cases s <;> simp [h]

@[simp] theorem release_txPos (s : State) : s.release.txPos = s.txPos := by
  obtain ⟨-, h⟩ | ⟨-, h⟩ := release_cases s <;> simp [h]

/-- A command that is executed moves the phase only if it is a FLUSH, which starts at byte 0 (R86). -/
theorem executes_phase {i : Instr} {s t : State} (h : Executes i s t) :
    (t.txPhase = s.txPhase ∧ t.txPos = s.txPos) ∨ (i = .flush ∧ t.txPhase = .burst ∧ t.txPos = 0) := by
  cases i with
  | map x y => obtain ⟨-, rfl⟩ | ⟨-, rfl⟩ := h <;> simp
  | set k r g b => obtain ⟨-, m, rfl, -⟩ | ⟨-, rfl⟩ := h <;> simp
  | clear =>
    obtain ⟨m, rfl, -⟩ := h
    simp
  | flush => exact .inr (by rw [show t = _ from h]; simp)

theorem executes_phaseOk {i : Instr} {s t : State} (h : Executes i s t) (hp : phaseOk s = true) :
    phaseOk t = true := by
  obtain ⟨hphase, hpos⟩ | ⟨-, hphase, hpos⟩ := executes_phase h
  · exact phaseOk_of_same hp hphase hpos
  · simp [phaseOk, hphase, hpos]

/-- An accepted byte: the position counts up to 75, where the phase becomes SETTLE (R87). -/
theorem byteAccepted_phaseOk {s : State} (hpos : s.txPos.toNat ≤ 74) :
    phaseOk (State.byteAccepted s) = true := by
  by_cases hlast : s.txPos + 1 = 75
  · simp only [phaseOk, byteAccepted_txPhase, byteAccepted_txPos, hlast, if_true, beq_self_eq_true]
  · have hnext : (s.txPos + 1).toNat ≤ 74 := by bv_omega
    simp only [phaseOk, byteAccepted_txPhase, byteAccepted_txPos, hlast, if_false]
    exact decide_eq_true hnext

theorem collaboratorStep_phaseOk {s : State} (hburst : s.txPhase = .burst) (hp : phaseOk s = true) :
    phaseOk s.collaboratorStep = true := by
  have hpos : s.txPos.toNat ≤ 74 := ((phaseOk_iff s).1 hp).2.1 hburst
  obtain ⟨-, h⟩ | ⟨-, -, h⟩ | ⟨-, -, h⟩ := collaboratorStep_cases s <;> rw [h]
  · exact byteAccepted_phaseOk hpos
  · exact phaseOk_of_same hp rfl rfl
  · exact phaseOk_of_same hp rfl rfl

theorem timerStep_phaseOk {s : State} (hp : phaseOk s = true) : phaseOk s.timerStep = true := by
  obtain ⟨-, h⟩ | ⟨-, h⟩ := timerStep_cases s <;> rw [h]
  · rfl
  · exact phaseOk_of_same hp rfl rfl

theorem step_keeps_phaseOk {s t : State} (hp : phaseOk s = true) (h : step s = .next t) :
    phaseOk t = true := by
  cases step_block h with
  | reset =>
    rw [warmReset_cases]
    rfl
  | release => exact phaseOk_of_same hp (release_txPhase s) (release_txPos s)
  | collaborator hm =>
    obtain ⟨-, -, hburst, -⟩ := (mover_says s).2.2.1 hm
    exact collaboratorStep_phaseOk hburst hp
  | timer => exact timerStep_phaseOk hp
  | executed _ _ _ he => exact executes_phaseOk he hp
  | illegal => exact phaseOk_of_same hp rfl rfl
  | unchanged hb =>
    obtain ⟨-, hphase, hpos, -⟩ := hb
    exact phaseOk_of_same hp hphase hpos

/-! ### R28 as a whole -/

theorem blockOk_iff (s : State) : blockOk s = true ↔ Memory.wf s.mem = true ∧ phaseOk s = true := by
  simp [blockOk]

theorem step_keeps_blockOk {s t : State} (hb : blockOk s = true) (h : step s = .next t) :
    blockOk t = true := by
  obtain ⟨hw, hp⟩ := (blockOk_iff s).1 hb
  exact (blockOk_iff t).2 ⟨step_keeps_wf hw h, step_keeps_phaseOk hp h⟩

theorem blockOk_launch (p : Params) (available : Bool) : blockOk (State.launch p available) = true := rfl

theorem cause_code_le (c : Cause) : c.code.toNat ≤ 4 := by cases c <;> decide

/-- A block frozen by IoFailure whose fault register explains itself stands in BURST at the failed byte. -/
theorem faultExplained_ioFailure {s : State} (h : faultExplained s = true)
    (hc : s.fault.cause = .ioFailure) : s.txPhase = .burst ∧ s.fault.info = s.txPos.setWidth 32 := by
  simpa [faultExplained, hc] using h

/-- Settles O42: the canonical memory and the agreement of phase and position are each kept by every step; the
other bounds are those of the types. -/
theorem stepKeepsTheBlockInvariant : Obligations.StepKeepsTheBlockInvariant := by
  refine ⟨blockOk_launch, fun s t => step_keeps_blockOk, fun s hb => ?_,
    fun s => faultExplained_ioFailure, fun s => ⟨?_, cause_code_le _, fun p _ c => ⟨Nat.zero_le _, ?_⟩⟩⟩
  · exact (phaseOk_iff s).1 ((blockOk_iff s).1 hb).2
  · simp [memRead]
  · exact Nat.le_of_lt_succ (p.channel c).isLt

/-! ### Who writes the PixelBuffer, and who moves the phase -/

/-- Settles O19: by `step_block`, only a command that is executed can write, and by `executes_mem` only CLEAR and
SET do. -/
theorem onlySetAndClearWriteThePixelBuffer : Obligations.OnlySetAndClearWriteThePixelBuffer := by
  intro s t hstep hrst hmem
  cases step_block hstep with
  | reset hm => exact absurd hm (mover_ne_reset hrst)
  | release => exact absurd (release_mem s) hmem
  | collaborator => exact absurd (collaboratorStep_mem s) hmem
  | timer => exact absurd (timerStep_mem s) hmem
  | @executed _ w i hm hd hr he =>
    refine ⟨w, i, hm, hd, ready_not_faulted hr, ?_⟩
    obtain hsame | ⟨hi, -⟩ | ⟨k, r, g, b, hi, hk, -⟩ := executes_mem he
    · exact absurd hsame hmem
    · exact .inl hi
    · exact .inr ⟨k, r, g, b, hi, Nat.le_of_lt_succ hk⟩
  | illegal w => exact absurd (raised_mem s _ w) hmem
  | unchanged hb =>
    obtain ⟨hsame, -⟩ := hb
    exact absurd hsame hmem

/-- Settles O31: of the commands only FLUSH moves the phase (`executes_phase`), and besides the commands only the
collaborator and the timer do. -/
theorem onlyFlushChangesThePhase : Obligations.OnlyFlushChangesThePhase := by
  intro s t hstep hrst hphase
  cases step_block hstep with
  | reset hm => exact absurd hm (mover_ne_reset hrst)
  | release => exact absurd (release_txPhase s) hphase
  | collaborator hm => exact .inr (.inl hm)
  | timer hm => exact .inr (.inr hm)
  | @executed _ w i hm hd hr he =>
    obtain ⟨hsame, -⟩ | ⟨rfl, -⟩ := executes_phase he
    · exact absurd hsame hphase
    · exact .inl ⟨w, hm, hd, ready_not_faulted hr⟩
  | illegal w => exact absurd (raised_txPhase s _ w) hphase
  | unchanged hb =>
    obtain ⟨-, hsame, -⟩ := hb
    exact absurd hsame hphase

end Sys2Proof.Proofs

/-! ## The display (R21, R77, R148)

The display is a function of three things, and a byte alone latches nothing: O33. -/

namespace Sys2Proof.Proofs

open Sys2Proof.Machine Sys2Proof.Safety Sys2Proof.Laws

/-- All the display depends on: whether a reset happened, whether a burst failed, and what the trace latches. -/
theorem display_congr {s t : State} (hwarm : t.warm = s.warm)
    (hio : t.fault.cause = .ioFailure ↔ s.fault.cause = .ioFailure)
    (htrace : latch [] none t.trace = latch [] none s.trace) : t.display = s.display := by
  have hcause : (t.fault.cause == .ioFailure) = (s.fault.cause == .ioFailure) := by
    rw [Bool.eq_iff_iff, beq_iff_eq, beq_iff_eq]
    exact hio
  simp only [State.display, hwarm, hcause, htrace]

/-- An accepted byte latches nothing (R21). -/
theorem byteAccepted_display (s : State) : (State.byteAccepted s).display = s.display :=
  display_congr rfl Iff.rfl (by simp [latch_append, latch])

theorem collaboratorStep_display {s : State}
    (hio : s.collaboratorStep.fault.cause = .ioFailure → s.fault.cause = .ioFailure) :
    s.collaboratorStep.display = s.display := by
  obtain ⟨-, h⟩ | ⟨-, -, h⟩ | ⟨-, -, h⟩ := collaboratorStep_cases s <;> rw [h] at hio ⊢
  · exact byteAccepted_display _
  · exact display_congr rfl ⟨hio, fun _ => rfl⟩ rfl
  · rfl

/-- A command that is executed gives the chain nothing in its own step: a FLUSH's bytes are the collaborator's. -/
theorem executes_trace_warm {i : Instr} {s t : State} (h : Executes i s t) :
    t.trace = s.trace ∧ t.warm = s.warm := by
  cases i with
  | map x y => obtain ⟨-, rfl⟩ | ⟨-, rfl⟩ := h <;> simp
  | set k r g b => obtain ⟨-, m, rfl, -⟩ | ⟨-, rfl⟩ := h <;> simp
  | clear =>
    obtain ⟨m, rfl, -⟩ := h
    simp
  | flush => exact ⟨by rw [show t = _ from h], by rw [show t = _ from h]⟩

/-- A command that is executed raises nothing but OutOfRange (R68, R76), with its own word. -/
theorem executes_fault {i : Instr} {s t : State} (h : Executes i s t) :
    t.fault = s.fault ∨ t.fault = { cause := .outOfRange, info := encode i } := by
  cases i with
  | map x y => obtain ⟨-, rfl⟩ | ⟨-, rfl⟩ := h <;> simp
  | set k r g b => obtain ⟨-, m, rfl, -⟩ | ⟨-, rfl⟩ := h <;> simp
  | clear =>
    obtain ⟨m, rfl, -⟩ := h
    simp
  | flush => exact .inl (by rw [show t = _ from h])

theorem ready_cause {s : State} (h : ready s = true) : s.fault.cause = .none :=
  (not_faulted_iff s).1 (ready_not_faulted h)

theorem executes_display {i : Instr} {s t : State} (hr : ready s = true) (h : Executes i s t) :
    t.display = s.display := by
  have hio : t.fault.cause = .ioFailure ↔ s.fault.cause = .ioFailure := by
    obtain hf | hf := executes_fault h <;> simp [hf, ready_cause hr]
  obtain ⟨htrace, hwarm⟩ := executes_trace_warm h
  exact display_congr hwarm hio (by rw [htrace])

theorem raised_illegal_display {s : State} (hr : ready s = true) (w : Word) :
    (raised .illegalCommand w s).display = s.display :=
  display_congr rfl (by simp [ready_cause hr]) rfl

theorem sameBlock_display {s t : State} (h : sameBlock s t) (hw : t.warm = s.warm) :
    t.display = s.display := by
  obtain ⟨-, -, -, hfault, htrace⟩ := h
  exact display_congr hw (by rw [hfault]) (by rw [htrace])

theorem mover_ne_release {s : State} (h : s.inReset = false) : s.mover ≠ .release := by
  intro hm
  obtain ⟨-, hi⟩ := (mover_says s).2.1 hm
  simp [h] at hi

theorem mover_ne_timer {s : State} (h : s.settling = false) : s.mover ≠ .timer := by
  intro hm
  obtain ⟨-, -, hp, hf⟩ := (mover_says s).2.2.2.1 hm
  simp [State.settling, hp, hf] at h

/-- Settles O33: of all a step can do to the block (`step_block`), only a reset, a settle's end and a failed byte
touch what the display depends on. -/
theorem displayChangesOnlyWhenASettleEnds : Obligations.DisplayChangesOnlyWhenASettleEnds := by
  intro s t hstep hrst hin hsettle hio
  cases step_block hstep with
  | reset hm => exact absurd hm (mover_ne_reset hrst)
  | release hm => exact absurd hm (mover_ne_release hin)
  | collaborator => exact collaboratorStep_display hio
  | timer hm => exact absurd hm (mover_ne_timer hsettle)
  | executed _ _ hr he => exact executes_display hr he
  | illegal w hr => exact raised_illegal_display hr w
  | unchanged hb hw => exact sameBlock_display hb hw

end Sys2Proof.Proofs

/-! ## The state after reset (R27, R28)

What `State.launch` holds, for all parameters and either answer of the initialisation check: O39 and O41. -/

namespace Sys2Proof.Proofs

open Sys2Proof.Machine Sys2Proof.Safety Sys2Proof.Laws

/-- Memory in which nothing is listed is the black PixelBuffer of R27. -/
theorem pixel_nil (i : Nat) : Memory.pixel [] i = Pixel.black := rfl

section
variable (p : Params) (available : Bool)

/-- The fault register at reset is the answer of the initialisation check (R122, R143). -/
theorem launch_fault : (State.launch p available).fault =
    { cause := if available then .none else .resourceExhausted, info := 0 } := rfl

/-- With an empty trace no LED's colour is known (R145). -/
theorem launch_display : (State.launch p available).display = none := by
  simp [State.display, State.launch, latch]

theorem launch_led (i : Nat) : (State.launch p available).led i = none := by
  simp [State.led, launch_display]

theorem traceFramed_launch : traceFramed (State.launch p available) = true := rfl

theorem burstFaithful_launch : burstFaithful (State.launch p available) = true := rfl

theorem cursorOk_launch : cursorOk (State.launch p available) = true := rfl

theorem faultExplained_launch : faultExplained (State.launch p available) = true := by
  cases available <;> rfl

theorem rspsLegal_launch : rspsLegal (State.launch p available) = true := rfl

theorem inv_launch : inv (State.launch p available) = true := by
  simp [inv, blockOk_launch, traceFramed_launch, burstFaithful_launch, cursorOk_launch,
    faultExplained_launch, rspsLegal_launch]

end

/-- Settles O39: R27's table, row by row; only the fault register's rows depend on the check. -/
theorem resetState : Obligations.ResetState := by
  intro p available
  refine ⟨fun i _ => pixel_nil i, rfl, rfl, ?_, rfl, rfl, launch_led p available, rfl, rfl, ?_, ?_⟩
  · cases available <;> simp [launch_fault, Cause.code]
  · cases available <;> simp [State.faulted, launch_fault]
  · cases available <;> simp [State.faultCause, launch_fault, Cause.code]

/-- Settles O41: each invariant holds in every state of `State.launch`, of which `State.reset` is one. -/
theorem resetMeetsTheInvariants : Obligations.ResetMeetsTheInvariants :=
  ⟨inv_launch Config.launch true, inv_launch⟩

end Sys2Proof.Proofs

/-! ## The PixelBuffer under several commands, and under a burst (R36, R38, R44)

A memory is its 25 Pixels (`wf_ext_pixel`), so what SET and CLEAR leave of each Pixel decides what two of them
leave: O17 and O18. While a burst is in flight nothing writes the memory: O44. -/

namespace Sys2Proof.Proofs

open Sys2Proof.Machine Sys2Proof.Safety Sys2Proof.Laws

/-! ### A memory is its Pixels -/

/-- Byte `a` is the channel `a % 3` of Pixel `a / 3` (R15). -/
theorem read_eq_pixel (m : Memory) (a : Nat) :
    Memory.read m a =
      if a % 3 = 0 then (Memory.pixel m (a / 3)).r
      else if a % 3 = 1 then (Memory.pixel m (a / 3)).g
      else (Memory.pixel m (a / 3)).b := by
  simp only [Memory.pixel]
  split_ifs <;> congr 1 <;> omega

/-- Canonical memories with equal Pixels are the same data. -/
theorem wf_ext_pixel {m n : Memory} (hm : Memory.wf m = true) (hn : Memory.wf n = true)
    (h : ∀ i, Memory.pixel m i = Memory.pixel n i) : m = n :=
  wf_ext hm hn fun a => by simp only [read_eq_pixel, h]

/-! ### SET and CLEAR as relations between memories -/

section
variable {m₀ m m' n n' : Memory} {i j : Nat} {p q : Pixel}

/-- What SET leaves, Pixel by Pixel. -/
theorem setMem_pixel (hi : i < 25) (hw : Memory.wf m₀ = true) (h : SetMem i p m₀ m) :
    Memory.wf m = true ∧ ∀ k, Memory.pixel m k = if k = i then p else Memory.pixel m₀ k := by
  obtain ⟨hsame, hother, -⟩ := h
  obtain ⟨hwm, hpix⟩ := hsame hw
  refine ⟨hwm, fun k => ?_⟩
  split
  next hk => rw [hk, hpix hi]
  next hk => exact hother k hk

/-- What CLEAR leaves, Pixel by Pixel. -/
theorem clearMem_pixel (hw : Memory.wf m₀ = true) (h : ClearMem m₀ m) :
    Memory.wf m = true ∧
      ∀ k, Memory.pixel m k = if k < 25 then Pixel.black else Memory.pixel m₀ k := by
  obtain ⟨hinside, hread⟩ := h
  obtain ⟨hwm, hblack⟩ := hinside hw
  refine ⟨hwm, fun k => ?_⟩
  split
  next hk => exact hblack k hk
  next hk => simp only [Memory.pixel, hread _ (by omega : 25 ≤ (3 * k) / 3),
    hread _ (by omega : 25 ≤ (3 * k + 1) / 3), hread _ (by omega : 25 ≤ (3 * k + 2) / 3)]

/-- CLEAR of a cleared memory changes nothing (R38). -/
theorem clearMem_idem (hw : Memory.wf m₀ = true) (h : ClearMem m₀ m) (h' : ClearMem m m') : m' = m := by
  obtain ⟨hwm, hm⟩ := clearMem_pixel hw h
  obtain ⟨hwm', hm'⟩ := clearMem_pixel hwm h'
  exact wf_ext_pixel hwm' hwm fun k => by rw [hm', hm]; split <;> rfl

/-- SET of a Pixel to the colour it was just set to changes nothing (R38). -/
theorem setMem_idem (hi : i < 25) (hw : Memory.wf m₀ = true) (h : SetMem i p m₀ m)
    (h' : SetMem i p m m') : m' = m := by
  obtain ⟨hwm, hm⟩ := setMem_pixel hi hw h
  obtain ⟨hwm', hm'⟩ := setMem_pixel hi hwm h'
  exact wf_ext_pixel hwm' hwm fun k => by rw [hm', hm]; split <;> rfl

/-- SETs of two different Pixels leave the same memory in either order (R36). -/
theorem setMem_comm (hi : i < 25) (hj : j < 25) (hij : i ≠ j) (hw : Memory.wf m₀ = true)
    (h : SetMem i p m₀ m) (h' : SetMem j q m m') (g : SetMem j q m₀ n) (g' : SetMem i p n n') :
    m' = n' := by
  obtain ⟨hwm, hm⟩ := setMem_pixel hi hw h
  obtain ⟨hwm', hm'⟩ := setMem_pixel hj hwm h'
  obtain ⟨hwn, hn⟩ := setMem_pixel hj hw g
  obtain ⟨hwn', hn'⟩ := setMem_pixel hi hwn g'
  refine wf_ext_pixel hwm' hwn' fun k => ?_
  rw [hm', hm, hn', hn]
  split
  next hk => rw [if_neg (by omega)]
  next => rfl

end

/-! ### A command in a ready block, and in a faulted one -/

/-- A ready block executes whatever command it takes. -/
theorem exec_of_ready {s : State} (hr : ready s = true) (i : Instr) :
    ∃ t, exec i s = .next t ∧ Executes i s t := by
  have hnext : ∃ t, exec i s = .next t := by cases i <;> exact ⟨_, runCommand_guarded hr⟩
  obtain ⟨t, ht⟩ := hnext
  obtain ⟨hbusy, -⟩ | ⟨-, hfault, -⟩ | ⟨-, he⟩ := exec_cases ht
  · simp [ready_cmdReady hr] at hbusy
  · simp [ready_not_faulted hr] at hfault
  · exact ⟨t, ht, he⟩

theorem exec_set_inRange {s : State} {k : Nat} (hr : ready s = true) (hk : k < 25) (r g b : Byte) :
    ∃ m, exec (.set k r g b) s = .next { answered s (okRsp 0) with mem := m } ∧
      SetMem k ⟨r, g, b⟩ s.mem m := by
  obtain ⟨t, ht, ⟨-, m, rfl, hm⟩ | ⟨hout, -⟩⟩ := exec_of_ready hr (.set k r g b)
  · exact ⟨m, ht, hm⟩
  · exact absurd ((indexInRange_false k).1 hout) (by omega)

theorem exec_set_outOfRange {s : State} {k : Nat} (hr : ready s = true) (hk : 25 ≤ k) (r g b : Byte) :
    exec (.set k r g b) s = .next (raised .outOfRange (encode (.set k r g b)) s) := by
  obtain ⟨t, ht, ⟨hin, -⟩ | ⟨-, rfl⟩⟩ := exec_of_ready hr (.set k r g b)
  · exact absurd ((indexInRange_iff k).1 hin) (by omega)
  · exact ht

theorem exec_clear_of_ready {s : State} (hr : ready s = true) :
    ∃ m, exec .clear s = .next { answered s (okRsp 0) with mem := m } ∧ ClearMem s.mem m := by
  obtain ⟨t, ht, m, rfl, hm⟩ := exec_of_ready hr .clear
  exact ⟨m, ht, hm⟩

/-- A faulted block answers every command with its cause (R126). -/
theorem exec_of_faulted {s : State} (hf : s.faulted = true) (ho : s.owed = none) (i : Instr) :
    exec i s = .next (answered s (errRsp s.fault.cause)) := by
  cases i <;> exact runCommand_halted hf ho

/-- A block that completed a write is ready for the next command. -/
theorem ready_written {s : State} (hr : ready s = true) (r : Rsp) (m : Memory) :
    ready { answered s r with mem := m } = true := by
  obtain ⟨-, hphase, hf⟩ := (ready_iff s).1 hr
  exact (ready_iff _).2 ⟨rfl, hphase, hf⟩

/-! ### Two commands in a row -/

/-- Settles O17: the second CLEAR, or the second SET in range, writes what stands there already; after a SET out
of range the block is faulted and the second one writes nothing. -/
theorem writesAreIdempotent : Obligations.WritesAreIdempotent := by
  rintro i s (rfl | ⟨k, r, g, b, rfl⟩) hr hw
  · obtain ⟨m, ht, hm⟩ := exec_clear_of_ready hr
    obtain ⟨m', hu, hm'⟩ := exec_clear_of_ready (ready_written hr (okRsp 0) m)
    exact ⟨_, _, ht, hu, clearMem_idem hw hm hm'⟩
  · obtain hk | hk := Nat.lt_or_ge k 25
    · obtain ⟨m, ht, hm⟩ := exec_set_inRange hr hk r g b
      obtain ⟨m', hu, hm'⟩ := exec_set_inRange (ready_written hr (okRsp 0) m) hk r g b
      exact ⟨_, _, ht, hu, setMem_idem hk hw hm hm'⟩
    · exact ⟨_, _, exec_set_outOfRange hr hk r g b, exec_of_faulted rfl rfl _, rfl⟩

/-- Settles O18: both orders give each Pixel the same colour (`setMem_comm`). -/
theorem setsOfDistinctPixelsCommute : Obligations.SetsOfDistinctPixelsCommute := by
  intro i j r g b r' g' b' s hi hj hij hr hw
  have hi : i < 25 := Nat.lt_succ_of_le hi
  have hj : j < 25 := Nat.lt_succ_of_le hj
  obtain ⟨m, ht, hm⟩ := exec_set_inRange hr hi r g b
  obtain ⟨m', hu, hm'⟩ := exec_set_inRange (ready_written hr (okRsp 0) m) hj r' g' b'
  obtain ⟨n, ht', hn⟩ := exec_set_inRange hr hj r' g' b'
  obtain ⟨n', hu', hn'⟩ := exec_set_inRange (ready_written hr (okRsp 0) n) hi r g b
  exact ⟨_, _, _, _, ht, hu, ht', hu', setMem_comm hi hj hij hw hm hm' hn hn'⟩

/-! ### The burst in flight -/

@[simp] theorem release_trace (s : State) : s.release.trace = s.trace := by
  obtain ⟨-, h⟩ | ⟨-, h⟩ := release_cases s <;> simp [h]

theorem burstFaithful_iff (s : State) :
    burstFaithful s = true ↔ openBytes [] s.trace = (frame s.mem).take s.txPos.toNat := by
  simp [burstFaithful]

/-- The memory, the position and the trace are all that faithfulness speaks of. -/
theorem burstFaithful_of_same {s t : State} (hf : burstFaithful s = true) (hmem : t.mem = s.mem)
    (hpos : t.txPos = s.txPos) (htrace : t.trace = s.trace) : burstFaithful t = true := by
  simpa only [burstFaithful, hmem, hpos, htrace] using hf

/-- At position 0 faithfulness says that no byte was sent since the last settle, whatever the memory holds. -/
theorem burstFaithful_at_zero {s : State} (hpos : s.txPos = 0) :
    burstFaithful s = true ↔ openBytes [] s.trace = [] := by
  simp [burstFaithful_iff, hpos]

/-- One byte more of the frame (R84). -/
theorem frame_take_succ (m : Memory) {k : Nat} (hk : k < 75) :
    (frame m).take (k + 1) = (frame m).take k ++ [byteAt m k] := by
  have hlen : k < (frame m).length := by simpa [frame] using hk
  rw [List.take_succ_eq_append_getElem hlen]
  simp [frame]

/-- The accepted byte is the frame's next one (R84, R87). -/
theorem byteAccepted_burstFaithful {s : State} (hpos : s.txPos.toNat ≤ 74) (hf : burstFaithful s = true) :
    burstFaithful (State.byteAccepted s) = true := by
  rw [burstFaithful_iff] at hf ⊢
  have hnext : (s.txPos + 1).toNat = s.txPos.toNat + 1 := by bv_omega
  simp only [byteAccepted_trace, byteAccepted_mem, byteAccepted_txPos, hnext, openBytes_append, hf, openBytes,
    frame_take_succ s.mem (Nat.lt_succ_of_le hpos)]

theorem collaboratorStep_burstFaithful {s : State} (hpos : s.txPos.toNat ≤ 74)
    (hf : burstFaithful s = true) : burstFaithful s.collaboratorStep = true := by
  obtain ⟨-, h⟩ | ⟨-, -, h⟩ | ⟨-, -, h⟩ := collaboratorStep_cases s <;> rw [h]
  · exact byteAccepted_burstFaithful hpos hf
  · exact burstFaithful_of_same hf rfl rfl rfl
  · exact burstFaithful_of_same hf rfl rfl rfl

/-- After the settle no burst is in flight (R89). -/
theorem timerStep_burstFaithful {s : State} (hf : burstFaithful s = true) :
    burstFaithful s.timerStep = true := by
  obtain ⟨-, h⟩ | ⟨-, h⟩ := timerStep_cases s <;> rw [h]
  · exact (burstFaithful_at_zero rfl).2 (by simp [openBytes_append, openBytes])
  · exact burstFaithful_of_same hf rfl rfl rfl

/-- A command is executed in an idle block only, so at position 0: it may write the memory (R44). -/
theorem executes_burstFaithful {i : Instr} {s t : State} (hr : ready s = true) (hp : phaseOk s = true)
    (h : Executes i s t) (hf : burstFaithful s = true) : burstFaithful t = true := by
  obtain ⟨-, hidle, -⟩ := (ready_iff s).1 hr
  have hs : s.txPos = 0 := ((phaseOk_iff s).1 hp).1 hidle
  have ht : t.txPos = 0 := by
    obtain ⟨-, hpos⟩ | ⟨-, -, hpos⟩ := executes_phase h
    · rw [hpos, hs]
    · exact hpos
  obtain ⟨htrace, -⟩ := executes_trace_warm h
  rw [burstFaithful_at_zero ht, htrace]
  exact (burstFaithful_at_zero hs).1 hf

/-- Settles O44: in a burst only the collaborator moves, and its accepted byte is the frame's next; the commands,
which alone write the memory, are executed at position 0 only; a settle's end and a reset leave no open bytes. -/
theorem stepKeepsTheBurstFaithful : Obligations.StepKeepsTheBurstFaithful := by
  intro s t hb hf hstep
  obtain ⟨-, hp⟩ := (blockOk_iff s).1 hb
  cases step_block hstep with
  | reset =>
    rw [warmReset_cases]
    rfl
  | release => exact burstFaithful_of_same hf (release_mem s) (release_txPos s) (release_trace s)
  | collaborator hm =>
    obtain ⟨-, -, hburst, -⟩ := (mover_says s).2.2.1 hm
    exact collaboratorStep_burstFaithful (((phaseOk_iff s).1 hp).2.1 hburst) hf
  | timer => exact timerStep_burstFaithful hf
  | executed _ _ hr he => exact executes_burstFaithful hr hp he hf
  | illegal => exact burstFaithful_of_same hf rfl rfl rfl
  | unchanged hsame =>
    obtain ⟨hmem, -, hpos, -, htrace⟩ := hsame
    exact burstFaithful_of_same hf hmem hpos htrace

end Sys2Proof.Proofs

/-! ## The command words (R51 to R56, R62)

The words of an operation are known by their number (`decode_eq_map_iff` and its three neighbours), and so are the
encoder's words: O1. A word that an opcode row matches has that row's fields, so it decodes: O2, and which words
are illegal. O4 is a handful of words written out. -/

namespace Sys2Proof.Proofs

open Sys2Proof.Machine Sys2Proof.Safety Sys2Proof.Laws

/-! ### The decoder -/

theorem field_eq_extract (w : Word) (hi lo : Nat) :
    field w hi lo = (w.extractLsb' lo (hi + 1 - lo)).toNat := by
  rw [BitVec.extractLsb'_toNat, Nat.shiftRight_eq_div_pow, field]

theorem channelField_eq_extract (w : Word) (lo : Nat) :
    channelField w (lo + 7) lo = w.extractLsb' lo 8 := by
  rw [channelField, field_eq_extract, show lo + 7 + 1 - lo = 8 by omega, BitVec.ofNat_toNat,
    BitVec.setWidth_eq]

/-- R62's listing, with the fields cut out of the word as bit vectors. -/
theorem decode_eq_listing (w : Word) : decode w =
    if w.extractLsb' 29 3 = 1 ∧ w.extractLsb' 7 22 = 0 ∧ w.extractLsb' 3 1 = 0 then
      some (.map (w.extractLsb' 0 3).toNat (w.extractLsb' 4 3).toNat)
    else if w.extractLsb' 29 3 = 2 then
      some (.set (w.extractLsb' 24 5).toNat (w.extractLsb' 16 8) (w.extractLsb' 8 8) (w.extractLsb' 0 8))
    else if w.extractLsb' 29 3 = 3 ∧ w.extractLsb' 0 29 = 0 then some .clear
    else if w.extractLsb' 29 3 = 4 ∧ w.extractLsb' 0 29 = 0 then some .flush
    else none := by
  simp only [decode, field_eq_extract, ← BitVec.toNat_inj, channelField_eq_extract w 16,
    channelField_eq_extract w 8, channelField_eq_extract w 0]
  rfl

/-- The words of MAP (R51). -/
theorem decode_eq_map_iff (w : Word) (x y : Nat) :
    decode w = some (.map x y) ↔ x < 8 ∧ y < 8 ∧ w.toNat = 0x20000000 + y * 2 ^ 4 + x := by
  have hw := w.isLt
  unfold decode field
  split_ifs
  all_goals simp only [Option.some.injEq, Instr.map.injEq, reduceCtorEq, false_iff]
  all_goals omega

/-- The words of SET (R52). -/
theorem decode_eq_set_iff (w : Word) (k : Nat) (r g b : Byte) :
    decode w = some (.set k r g b) ↔ k < 32 ∧
      w.toNat = 0x40000000 + k * 2 ^ 24 + r.toNat * 2 ^ 16 + g.toNat * 2 ^ 8 + b.toNat := by
  have hw := w.isLt
  have hr := r.isLt
  have hg := g.isLt
  have hb := b.isLt
  unfold decode channelField field
  split_ifs
  all_goals simp only [Option.some.injEq, Instr.set.injEq, reduceCtorEq, false_iff,
    ← BitVec.toNat_inj, BitVec.toNat_ofNat]
  all_goals omega

/-- The word of CLEAR (R53). -/
theorem decode_eq_clear_iff (w : Word) : decode w = some .clear ↔ w.toNat = 0x60000000 := by
  have hw := w.isLt
  unfold decode field
  split_ifs
  all_goals simp only [Option.some.injEq, reduceCtorEq, false_iff, true_iff]
  all_goals omega

/-- The word of FLUSH (R53). -/
theorem decode_eq_flush_iff (w : Word) : decode w = some .flush ↔ w.toNat = 0x80000000 := by
  have hw := w.isLt
  unfold decode field
  split_ifs
  all_goals simp only [Option.some.injEq, reduceCtorEq, false_iff, true_iff]
  all_goals omega

/-! ### The encoder -/

/-- Disjoint fields: `|` is `+` (R62). -/
theorem toNat_or_of_dvd {x y : Word} {n : Nat} (hx : 2 ^ n ∣ x.toNat) (hy : y.toNat < 2 ^ n) :
    (x ||| y).toNat = x.toNat + y.toNat := by
  obtain ⟨a, ha⟩ := hx
  rw [BitVec.toNat_or, ha, Nat.two_pow_add_eq_or_of_lt hy]

/-- A field of value `v` put at bit `lo`, below bit `n`, beside what stands from bit `n` up. -/
theorem toNat_or_shiftLeft {x y : Word} {v : Nat} (lo n : Nat) (hy : y.toNat = v) (hn : n ≤ 32)
    (hx : 2 ^ n ∣ x.toNat) (hv : v * 2 ^ lo < 2 ^ n) :
    (x ||| y <<< lo).toNat = x.toNat + v * 2 ^ lo := by
  have hshift : (y <<< lo).toNat = v * 2 ^ lo := by
    rw [BitVec.toNat_shiftLeft, Nat.shiftLeft_eq, hy,
      Nat.mod_eq_of_lt (hv.trans_le (Nat.pow_le_pow_right (by decide) hn))]
  rw [toNat_or_of_dvd hx (hshift ▸ hv), hshift]

theorem toNat_operandBits {n v : Nat} (hn : n ≤ 32) (hv : v < 2 ^ n) : (operandBits n v).toNat = v := by
  rw [operandBits, BitVec.toNat_setWidth_of_le hn, BitVec.toNat_ofNat, Nat.mod_eq_of_lt hv]

theorem toNat_setWidth_byte (v : Byte) : (v.setWidth 32).toNat = v.toNat :=
  BitVec.toNat_setWidth_of_le (by decide)

theorem toNat_encode_map {x y : Nat} (hx : x < 8) (hy : y < 8) :
    (encode (.map x y)).toNat = 0x20000000 + y * 2 ^ 4 + x := by
  have ex := toNat_operandBits (n := 3) (by decide) hx
  have ey : (0x20000000#32 ||| operandBits 3 y <<< 4).toNat = 0x20000000 + y * 2 ^ 4 :=
    toNat_or_shiftLeft 4 29 (toNat_operandBits (by decide) hy) (by decide) (by decide) (by omega)
  rw [encode, toNat_or_of_dvd (n := 4) (by omega) (by omega), ey, ex]

theorem toNat_encode_set {k : Nat} (r g b : Byte) (hk : k < 32) : (encode (.set k r g b)).toNat =
    0x40000000 + k * 2 ^ 24 + r.toNat * 2 ^ 16 + g.toNat * 2 ^ 8 + b.toNat := by
  have hr := r.isLt
  have hg := g.isLt
  have hb := b.isLt
  have ek : (0x40000000#32 ||| operandBits 5 k <<< 24).toNat = 0x40000000 + k * 2 ^ 24 :=
    toNat_or_shiftLeft 24 29 (toNat_operandBits (by decide) hk) (by decide) (by decide) (by omega)
  have er := toNat_or_shiftLeft (x := 0x40000000#32 ||| operandBits 5 k <<< 24) 16 24
    (toNat_setWidth_byte r) (by decide) (by omega) (by omega)
  have eg := toNat_or_shiftLeft
    (x := 0x40000000#32 ||| operandBits 5 k <<< 24 ||| r.setWidth 32 <<< 16) 8 16
    (toNat_setWidth_byte g) (by decide) (by omega) (by omega)
  have eb := toNat_setWidth_byte b
  rw [encode, toNat_or_of_dvd (n := 8) (by omega) (by omega), eg, er, ek, eb]

/-! ### The two inverse laws -/

theorem wellFormed_map_iff (x y : Nat) : (Instr.map x y).wellFormed = true ↔ x < 8 ∧ y < 8 := by
  simp [Instr.wellFormed]

theorem wellFormed_set_iff (k : Nat) (r g b : Byte) :
    (Instr.set k r g b).wellFormed = true ↔ k < 32 := by
  simp [Instr.wellFormed]

theorem decode_encode {i : Instr} (h : i.wellFormed = true) : decode (encode i) = some i := by
  cases i with
  | map x y =>
    obtain ⟨hx, hy⟩ := (wellFormed_map_iff x y).1 h
    exact (decode_eq_map_iff _ x y).2 ⟨hx, hy, toNat_encode_map hx hy⟩
  | set k r g b =>
    have hk := (wellFormed_set_iff k r g b).1 h
    exact (decode_eq_set_iff _ k r g b).2 ⟨hk, toNat_encode_set r g b hk⟩
  | clear => exact (decode_eq_clear_iff _).2 rfl
  | flush => exact (decode_eq_flush_iff _).2 rfl

theorem encode_of_decode {w : Word} {i : Instr} (h : decode w = some i) :
    i.wellFormed = true ∧ encode i = w := by
  cases i with
  | map x y =>
    obtain ⟨hx, hy, hw⟩ := (decode_eq_map_iff w x y).1 h
    exact ⟨(wellFormed_map_iff x y).2 ⟨hx, hy⟩,
      BitVec.eq_of_toNat_eq ((toNat_encode_map hx hy).trans hw.symm)⟩
  | set k r g b =>
    obtain ⟨hk, hw⟩ := (decode_eq_set_iff w k r g b).1 h
    exact ⟨(wellFormed_set_iff k r g b).2 hk,
      BitVec.eq_of_toNat_eq ((toNat_encode_set r g b hk).trans hw.symm)⟩
  | clear => exact ⟨rfl, BitVec.eq_of_toNat_eq ((decode_eq_clear_iff w).1 h).symm⟩
  | flush => exact ⟨rfl, BitVec.eq_of_toNat_eq ((decode_eq_flush_iff w).1 h).symm⟩

/-- Settles O1: the fields of the listing are R62's, the encoder's fields are disjoint, and a word decodes to an
operation exactly when it has that operation's number. -/
theorem decoderAndEncoderAreInverse : Obligations.DecoderAndEncoderAreInverse :=
  ⟨decode_eq_listing, fun _ _ hx hy => toNat_encode_map hx hy,
    fun _ r g b hk => toNat_encode_set r g b hk, rfl, rfl, fun _ h => decode_encode h,
    fun _ _ h => encode_of_decode h⟩

/-! ### The opcode map -/

/-- `encode i` matches exactly its own row, for every operation. -/
theorem ownOpcodeRow (i : Instr) : OwnOpcodeRow.Statement i := by
  cases i with
  | map x y => exact OwnOpcodeRow.map x y
  | set k r g b => exact OwnOpcodeRow.set k r g b
  | clear => exact OwnOpcodeRow.clear
  | flush => exact OwnOpcodeRow.flush

/-- A word that decodes matches exactly the row of its operation's name. -/
theorem matchesWord_of_decode {w : Word} {i : Instr} (h : decode w = some i) :
    ∀ row ∈ opRows, row.matchesWord w = (row.mnemonic == i.mnemonic) := by
  obtain ⟨-, rfl⟩ := encode_of_decode h
  exact ownOpcodeRow i

/-- A word masked to a pattern has the pattern's value in each field that the mask covers. -/
theorem extract_of_mask {w mask pattern : Word} (lo len : Nat) (h : w &&& mask = pattern)
    (hmask : mask.extractLsb' lo len = BitVec.allOnes len) :
    w.extractLsb' lo len = pattern.extractLsb' lo len := by
  rw [← h, BitVec.extractLsb'_and, hmask, BitVec.and_allOnes]

/-- A word that a row matches has that row's operation and its zero fields, so it decodes. -/
theorem decode_ne_none_of_matchesWord {w : Word} {row : OpRow} (hrow : row ∈ opRows)
    (h : row.matchesWord w = true) : decode w ≠ none := by
  have hm : w &&& row.mask = row.pattern := by simpa [OpRow.matchesWord] using h
  rw [decode_eq_listing]
  simp only [opRows, List.mem_cons, List.not_mem_nil, or_false] at hrow
  obtain rfl | rfl | rfl | rfl := hrow
  · have hop : w.extractLsb' 29 3 = 1 := extract_of_mask 29 3 hm (by decide)
    have hhigh : w.extractLsb' 7 22 = 0 := extract_of_mask 7 22 hm (by decide)
    have hlow : w.extractLsb' 3 1 = 0 := extract_of_mask 3 1 hm (by decide)
    simp [hop, hhigh, hlow]
  · have hop : w.extractLsb' 29 3 = 2 := extract_of_mask 29 3 hm (by decide)
    simp [hop]
  · have hop : w.extractLsb' 29 3 = 3 := extract_of_mask 29 3 hm (by decide)
    have hzero : w.extractLsb' 0 29 = 0 := extract_of_mask 0 29 hm (by decide)
    simp [hop, hzero]
  · have hop : w.extractLsb' 29 3 = 4 := extract_of_mask 29 3 hm (by decide)
    have hzero : w.extractLsb' 0 29 = 0 := extract_of_mask 0 29 hm (by decide)
    simp [hop, hzero]

theorem mnemonic_has_row (i : Instr) : ∃ row ∈ opRows, row.mnemonic = i.mnemonic := by
  cases i <;> simp [opRows, Instr.mnemonic]

/-- No two rows bear the same name. -/
theorem rows_of_mnemonic_le_one (i : Instr) :
    (opRows.filter (fun row => row.mnemonic == i.mnemonic)).length ≤ 1 := by
  cases i <;> simp [opRows, Instr.mnemonic]

theorem matchesWord_false_of_decode_none {w : Word} (h : decode w = none) :
    ∀ row ∈ opRows, row.matchesWord w = false := fun _ hrow =>
  Bool.eq_false_iff.2 fun hm => decode_ne_none_of_matchesWord hrow hm h

/-- Settles O2: a word that a row matches decodes, and a word that decodes matches exactly the row of its
operation's name, of which there is one. -/
theorem opcodeRowsDecide : Obligations.OpcodeRowsDecide := by
  refine ⟨fun w row hrow => ⟨fun hm => ?_, ?_⟩, fun w => ?_⟩
  · obtain ⟨i, hi⟩ := Option.ne_none_iff_exists'.1 (decode_ne_none_of_matchesWord hrow hm)
    rw [matchesWord_of_decode hi row hrow, beq_iff_eq] at hm
    exact ⟨i, hi, hm.symm⟩
  · rintro ⟨i, hi, hname⟩
    rw [matchesWord_of_decode hi row hrow, hname, beq_self_eq_true]
  · cases hd : decode w with
    | none =>
      have hnil : opRows.filter (·.matchesWord w) = [] :=
        List.filter_eq_nil_iff.2 fun row hrow => by simp [matchesWord_false_of_decode_none hd row hrow]
      simp [hnil]
    | some i =>
      rw [List.filter_congr (matchesWord_of_decode hd)]
      exact rows_of_mnemonic_le_one i

/-! ### The illegal words -/

theorem decode_eq_none_iff_no_row (w : Word) :
    decode w = none ↔ ∀ row ∈ opRows, row.matchesWord w = false := by
  refine ⟨matchesWord_false_of_decode_none, fun h => ?_⟩
  cases hd : decode w with
  | none => rfl
  | some i =>
    obtain ⟨row, hrow, hname⟩ := mnemonic_has_row i
    have hm := matchesWord_of_decode hd row hrow
    simp [h row hrow, hname] at hm

/-- Which words are illegal, by their operation field and the bits that the formats leave 0 (R56). -/
theorem decode_eq_none_iff_fields (w : Word) : decode w = none ↔
    (w.extractLsb' 29 3 = 0 ∨ w.extractLsb' 29 3 = 5 ∨ w.extractLsb' 29 3 = 6 ∨ w.extractLsb' 29 3 = 7) ∨
    (w.extractLsb' 29 3 = 1 ∧ (w.extractLsb' 7 22 ≠ 0 ∨ w.extractLsb' 3 1 ≠ 0)) ∨
    ((w.extractLsb' 29 3 = 3 ∨ w.extractLsb' 29 3 = 4) ∧ w.extractLsb' 0 29 ≠ 0) := by
  have hops : ∀ op : BitVec 3, op = 0 ∨ op = 1 ∨ op = 2 ∨ op = 3 ∨ op = 4 ∨ op = 5 ∨ op = 6 ∨ op = 7 := by
    decide
  rw [decode_eq_listing]
  obtain h | h | h | h | h | h | h | h := hops (w.extractLsb' 29 3) <;> simp [h, imp_iff_not_or]

/-- Settles O4: ten words, evaluated. -/
theorem handWrittenWordsDecode : Obligations.HandWrittenWordsDecode := by
  unfold Obligations.HandWrittenWordsDecode
  decide

end Sys2Proof.Proofs

/-! ## A command on offer (R57, R62, R64)

A command is `runCommand` of the effect of its word (`exec_eq_runCommand`, `step_command`), at the operation level
as at the word level; from that, O5, O6, O7, what an illegal word raises (O3), and, cycle by cycle, O55. -/

namespace Sys2Proof.Proofs

open Sys2Proof.Machine Sys2Proof.Safety Sys2Proof.Laws

/-! ### The effect of a word -/

/-- The meaning of an operation is the effect of the word that decodes to it. -/
theorem exec_eq_runCommand {w : Word} {i : Instr} (hd : decode w = some i) (s : State) :
    exec i s = runCommand (cmdEffect w) s := by
  unfold cmdEffect
  rw [hd]
  cases i <;> rfl

theorem execIllegal_eq_runCommand {w : Word} (hd : decode w = none) (s : State) :
    execIllegal w s = runCommand (cmdEffect w) s := by
  unfold cmdEffect
  rw [hd]
  rfl

/-- A step that takes a word that decodes. -/
theorem step_legal {s : State} {w : Word} {i : Instr} (hm : s.mover = .command w)
    (hd : decode w = some i) : step s = exec i s := by
  unfold step
  simp only [hm, hd]

/-- A step that takes a word that does not. -/
theorem step_illegal {s : State} {w : Word} (hm : s.mover = .command w) (hd : decode w = none) :
    step s = execIllegal w s := by
  unfold step
  simp only [hm, hd]

/-- A step that takes a word runs the word's effect, whatever the word. -/
theorem step_command {s : State} {w : Word} (hm : s.mover = .command w) :
    step s = runCommand (cmdEffect w) s := by
  cases hd : decode w with
  | none => rw [step_illegal hm hd, execIllegal_eq_runCommand hd]
  | some i => rw [step_legal hm hd, exec_eq_runCommand hd]

/-! ### Steps that run commands, and commands that wait -/

/-- Settles O5: the word on offer is what moves a ready, quiet block; placing a word puts it at the head of the
words on offer and leaves the block ready and quiet. -/
theorem stepRunsTheDecodedCommand : Obligations.StepRunsTheDecodedCommand := by
  refine ⟨fun s w rest i hq hr hc hd => step_legal (mover_command hq hr hc) hd, fun s w i hq hr hd => ?_⟩
  exact step_legal (s := s.withFetchWord 32 w) (mover_command hq hr rfl) hd

theorem exec_busy {s : State} (h : s.cmdReady = false) (i : Instr) : exec i s = .next s := by
  cases i <;> exact runCommand_busy h

/-- Settles O6: exec runs nothing where `cmd_ready` is 0, which it is in a burst or settle of a sound block. -/
theorem busyBlockKeepsTheCommandWaiting : Obligations.BusyBlockKeepsTheCommandWaiting := by
  refine ⟨fun i s h => exec_busy h i, fun s hphase hf => Bool.eq_false_iff.2 fun hr => ?_⟩
  obtain ⟨-, hidle | hfaulted⟩ := (cmdReady_iff s).1 hr
  · exact hphase hidle
  · simp [hf] at hfaulted

theorem runCommand_total (effect : State → State) (s : State) : ∃ t, runCommand effect s = .next t := by
  cases hc : s.cmdReady with
  | true => exact ⟨_, runCommand_ready hc⟩
  | false => exact ⟨_, runCommand_busy hc⟩

theorem exec_total (i : Instr) (s : State) : ∃ t, exec i s = .next t := by
  cases i <;> exact runCommand_total _ s

/-- Settles O7: a command, legal or not, is a `runCommand`, and every other agent's step is a next state. -/
theorem nothingStopsTheMachine : Obligations.NothingStopsTheMachine := by
  refine ⟨exec_total, fun s => ?_⟩
  cases hm : s.mover with
  | command w =>
    rw [step_command hm]
    exact runCommand_total _ s
  | _ =>
    unfold step
    simp only [hm]
    exact ⟨_, rfl⟩

/-- A ready block that takes an illegal word raises IllegalCommand with it (R56, R124). -/
theorem execIllegal_of_ready {s : State} (hr : ready s = true) (w : Word) :
    execIllegal w s = .next (raised .illegalCommand w s) := by
  rw [← deliver_raise_accept]
  exact runCommand_guarded hr

/-- Settles O3: a word is illegal where no row matches it, its fields say when that is, and a ready block that
takes it raises IllegalCommand. -/
theorem illegalWordsRaiseIllegalCommand : Obligations.IllegalWordsRaiseIllegalCommand := by
  refine ⟨decode_eq_none_iff_no_row, decode_eq_none_iff_fields, by decide, by decide,
    fun s w rest hq hr hc hd => ?_⟩
  rw [step_illegal (mover_command hq (ready_cmdReady hr) hc) hd, execIllegal_of_ready hr]

end Sys2Proof.Proofs

/-! ## The form of a response (R59)

A response is built by `okRsp` from an index on the grid or from 0, or by `errRsp` from the cause of a fault; so
every step that answers keeps O38. -/

namespace Sys2Proof.Proofs

open Sys2Proof.Machine Sys2Proof.Safety Sys2Proof.Laws

theorem rspLegal_okRsp {v : Nat} (h : v ≤ 24) : rspLegal (okRsp v) = true := by
  have hv : (okRsp v).toNat = v := by
    rw [okRsp, BitVec.toNat_setWidth_of_le (by decide), BitVec.toNat_ofNat, Nat.mod_eq_of_lt (by omega)]
  simp [rspLegal, rspErr_okRsp, hv, h]

theorem rspLegal_errRsp {c : Cause} (h : c ≠ .none) : rspLegal (errRsp c) = true := by
  cases c with
  | none => exact absurd rfl h
  | _ => decide

theorem mapIndex_le {x y : Nat} (h : coordInRange x y = true) : mapIndex x y ≤ 24 := by
  obtain ⟨hx, hy⟩ := (coordInRange_iff x y).1 h
  unfold mapIndex
  split <;> omega

theorem rspsLegal_iff (s : State) : rspsLegal s = true ↔
    (∀ r ∈ s.rsps, rspLegal r = true) ∧ ∀ r, s.owed = some r → rspLegal r = true := by
  simp [rspsLegal]

/-- A legal response is owed, instead of the one owed before. -/
theorem rspsLegal_owing {s t : State} {r : Rsp} (h : rspsLegal s = true) (hrsps : t.rsps = s.rsps)
    (howed : t.owed = some r) (hr : rspLegal r = true) : rspsLegal t = true := by
  obtain ⟨hgiven, -⟩ := (rspsLegal_iff s).1 h
  refine (rspsLegal_iff t).2 ⟨hrsps ▸ hgiven, fun r' hr' => ?_⟩
  obtain rfl : r = r' := by simpa [howed] using hr'
  exact hr

theorem rspsLegal_deliver {s : State} (h : rspsLegal s = true) : rspsLegal s.deliver = true := by
  simpa [rspsLegal] using h

/-- A legal response is given. -/
theorem rspsLegal_answered {s t : State} {r : Rsp} (h : rspsLegal s = true) (hr : rspLegal r = true)
    (hrsps : t.rsps = s.rsps ++ [r]) (howed : t.owed = none) : rspsLegal t = true := by
  obtain ⟨hgiven, -⟩ := (rspsLegal_iff s).1 h
  simpa [rspsLegal, hrsps, howed, hr] using hgiven

theorem executes_rspsLegal {i : Instr} {s t : State} (hr : rspsLegal s = true) (h : Executes i s t) :
    rspsLegal t = true := by
  have hout : rspLegal (errRsp .outOfRange) = true := rspLegal_errRsp (by decide)
  have hzero : rspLegal (okRsp 0) = true := rspLegal_okRsp (by decide)
  cases i with
  | map x y =>
    obtain ⟨hin, rfl⟩ | ⟨-, rfl⟩ := h
    · exact rspsLegal_answered hr (rspLegal_okRsp (mapIndex_le hin)) rfl rfl
    · exact rspsLegal_answered hr hout rfl rfl
  | set k r g b =>
    obtain ⟨-, m, rfl, -⟩ | ⟨-, rfl⟩ := h
    · exact rspsLegal_answered hr hzero rfl rfl
    · exact rspsLegal_answered hr hout rfl rfl
  | clear =>
    obtain ⟨m, rfl, -⟩ := h
    exact rspsLegal_answered hr hzero rfl rfl
  | flush =>
    obtain rfl : t = _ := h
    exact hr

theorem halted_rspsLegal {s : State} (hr : rspsLegal s = true) (hf : s.faulted = true) :
    rspsLegal (answered s (errRsp s.fault.cause)) = true :=
  rspsLegal_answered hr (rspLegal_errRsp ((faulted_iff s).1 hf)) rfl rfl

theorem exec_rspsLegal {i : Instr} {s t : State} (hr : rspsLegal s = true) (h : exec i s = .next t) :
    rspsLegal t = true := by
  obtain ⟨-, rfl⟩ | ⟨-, hf, rfl⟩ | ⟨-, he⟩ := exec_cases h
  · exact hr
  · exact halted_rspsLegal hr hf
  · exact executes_rspsLegal hr he

theorem execIllegal_rspsLegal {w : Word} {s t : State} (hr : rspsLegal s = true)
    (h : execIllegal w s = .next t) : rspsLegal t = true := by
  obtain ⟨-, rfl⟩ | ⟨-, hf, rfl⟩ | ⟨-, rfl⟩ := execIllegal_cases h
  · exact hr
  · exact halted_rspsLegal hr hf
  · exact rspsLegal_answered hr (rspLegal_errRsp (by decide)) rfl rfl

theorem collaboratorStep_rspsLegal {s : State} (hr : rspsLegal s = true) :
    rspsLegal s.collaboratorStep = true := by
  obtain ⟨-, h⟩ | ⟨-, -, h⟩ | ⟨-, -, h⟩ := collaboratorStep_cases s <;> rw [h]
  · exact hr
  · exact rspsLegal_deliver (rspsLegal_owing hr rfl rfl (rspLegal_errRsp (by decide)))
  · exact hr

theorem timerStep_rspsLegal {s : State} (hr : rspsLegal s = true) : rspsLegal s.timerStep = true := by
  obtain ⟨-, h⟩ | ⟨-, h⟩ := timerStep_cases s <;> rw [h]
  · exact rspsLegal_deliver (rspsLegal_owing hr rfl rfl (rspLegal_okRsp (by decide)))
  · exact hr

/-- A reset drops the response owed and gives none (R142). -/
theorem warmReset_rspsLegal {s : State} (hr : rspsLegal s = true) : rspsLegal s.warmReset = true := by
  obtain ⟨hgiven, -⟩ := (rspsLegal_iff s).1 hr
  rw [warmReset_cases]
  simpa [rspsLegal] using hgiven

theorem release_rspsLegal {s : State} (hr : rspsLegal s = true) : rspsLegal s.release = true := by
  obtain ⟨-, h⟩ | ⟨-, h⟩ := release_cases s <;> rw [h] <;> exact hr

theorem hostStep_rspsLegal {s : State} (hr : rspsLegal s = true) : rspsLegal s.hostStep = true := by
  obtain ⟨cmds, host, h, -⟩ := hostStep_frame s
  rw [h]
  exact hr

/-- Settles O38: whoever moves (`step_next`), a response it makes has one of the two forms. -/
theorem stepKeepsTheResponsesLegal : Obligations.StepKeepsTheResponsesLegal := by
  intro s t hr hstep
  obtain ⟨-, rfl⟩ | ⟨-, rfl⟩ | ⟨-, rfl⟩ | ⟨-, rfl⟩ | ⟨-, rfl⟩ | ⟨-, rfl⟩ |
    ⟨w, i, -, -, hexec⟩ | ⟨w, -, -, hexec⟩ := step_next hstep
  · exact warmReset_rspsLegal hr
  · exact release_rspsLegal hr
  · exact collaboratorStep_rspsLegal hr
  · exact timerStep_rspsLegal hr
  · exact rspsLegal_deliver hr
  · exact hostStep_rspsLegal hr
  · exact exec_rspsLegal hr hexec
  · exact execIllegal_rspsLegal hr hexec

end Sys2Proof.Proofs

/-! ## The word level (R49, R63, R64)

A quiet block with responses given at once does in a cycle what `blockCycle` does, by which of its three
activities it is in: O55 sets each beside the step of the agent with the same input. -/

namespace Sys2Proof.Proofs

open Sys2Proof.Machine Sys2Proof.Safety Sys2Proof.Laws

/-! ### The three activities of the block -/

theorem quiet_iff (s : State) : quiet s = true ↔ s.rst = false ∧ s.inReset = false ∧ s.owed = none := by
  simp [quiet, and_assoc]

theorem txValid_iff (s : State) : s.txValid = true ↔ s.txPhase = .burst ∧ s.faulted = false := by
  simp [State.txValid]

theorem settling_iff (s : State) : s.settling = true ↔ s.txPhase = .settle ∧ s.faulted = false := by
  simp [State.settling]

section
variable {p : Pins} {s : State}

theorem blockCycle_of_txValid (h : s.txValid = true) : blockCycle p s = byteCycle p s := by
  simp [blockCycle, h]

theorem blockCycle_of_settling (h : s.settling = true) : blockCycle p s = settleCycle s := by
  obtain ⟨hphase, -⟩ := (settling_iff s).1 h
  simp [blockCycle, h, State.txValid, hphase]

theorem blockCycle_of_cmdReady (h : s.cmdReady = true) :
    blockCycle p s = if p.cmdValid then cmdEffect p.cmd s else s := by
  have hbusy : s.txValid = false ∧ s.settling = false := by
    obtain ⟨-, hidle | hf⟩ := (cmdReady_iff s).1 h
    · simp [State.txValid, State.settling, hidle]
    · simp [State.txValid, State.settling, hf]
  obtain ⟨hburst, hsettle⟩ := hbusy
  simp [blockCycle, hburst, hsettle, h]

/-- A cycle of a quiet block, its response given in the same cycle. -/
theorem cycle_of_quiet (hrst : p.rst = false) (hgive : p.giveRsp = true) (hq : quiet s = true) :
    (cycle p s).1 = State.deliver (blockCycle p s) := by
  obtain ⟨-, hin, -⟩ := (quiet_iff s).1 hq
  rw [cycle_running hrst hin, if_pos hgive]

/-! ### The neighbours with one more answer to give -/

theorem step_collaborator (hm : s.mover = .collaborator) : step s = .next s.collaboratorStep := by
  unfold step
  simp only [hm]

theorem step_timer (hm : s.mover = .timer) : step s = .next s.timerStep := by
  unfold step
  simp only [hm]

/-- In a burst, a collaborator whose next answer is *accepted* (R87). -/
theorem step_accepting (hq : quiet s = true) (hv : s.txValid = true) :
    step { s with tx := { s.tx with answers := .accepted :: s.tx.answers } } =
      .next (State.byteAccepted s) := by
  obtain ⟨hburst, hf⟩ := (txValid_iff s).1 hv
  exact step_collaborator (mover_collaborator hq hburst hf)

/-- In a burst, a collaborator whose next answer is *failed*, where it may fail (R88). -/
theorem step_failing (hq : quiet s = true) (hv : s.txValid = true) (hfall : s.params.txFallible = true) :
    step { s with tx := { s.tx with answers := .failed :: s.tx.answers } } =
      .next (State.deliver (State.byteFailed s)) := by
  obtain ⟨hburst, hf⟩ := (txValid_iff s).1 hv
  rw [step_collaborator (by exact mover_collaborator hq hburst hf)]
  exact congrArg _ (if_pos hfall)

/-- In a settle, a timer that fires in its next step (R89). -/
theorem step_firing (hq : quiet s = true) (hv : s.settling = true) :
    step { s with timer := { s.timer with answers := .done :: s.timer.answers } } =
      .next (State.deliver (State.settleDone s)) := by
  obtain ⟨hsettle, hf⟩ := (settling_iff s).1 hv
  exact step_timer (mover_timer hq hsettle hf)

/-- A word placed before a ready block: the step runs its effect and gives the response. -/
theorem step_place (hq : quiet s = true) (hr : s.cmdReady = true) (w : Word) :
    step (s.place w) = .next (State.deliver (cmdEffect w s)) := by
  rw [step_command (mover_command (s := s.place w) hq hr rfl), runCommand_ready (s := s.place w) hr]
  rfl

end

/-! ### A cycle is a step -/

/-- Settles O55: in a burst, in a settle and with `cmd_ready` 1, what the pins say is what the agent of the
corresponding step does. -/
theorem cyclesRefineSteps : Obligations.CyclesRefineSteps := by
  intro p s hrst hgive hq
  obtain ⟨-, -, howed⟩ := (quiet_iff s).1 hq
  rw [cycle_of_quiet hrst hgive hq]
  refine ⟨fun hv herr hready => ?_, fun hv herr hfall => ?_, fun hv herr hready => ?_,
    fun hv hlast => ?_, fun hv hmore => ?_, fun hr hvalid => ?_, fun hr hvalid => ?_⟩
  · have hbyte : byteCycle p s = State.byteAccepted s := by simp [byteCycle, herr, hready]
    rw [step_accepting hq hv, blockCycle_of_txValid hv, hbyte, deliver_quiet (s := State.byteAccepted s) howed]
  · have hbyte : byteCycle p s = State.byteFailed s := by simp [byteCycle, herr, hfall]
    rw [step_failing hq hv hfall, blockCycle_of_txValid hv, hbyte]
  · have hbyte : byteCycle p s = s := by simp [byteCycle, herr, hready]
    rw [blockCycle_of_txValid hv, hbyte, deliver_quiet howed]
  · have hdone : settleCycle s = State.settleDone s := if_pos hlast
    rw [step_firing hq hv, blockCycle_of_settling hv, hdone]
  · have hcount : settleCycle s = { s with settleCount := s.settleCount + 1 } := if_neg (by omega)
    rw [blockCycle_of_settling hv, hcount]
    exact deliver_quiet howed
  · rw [step_place hq hr, blockCycle_of_cmdReady hr, if_pos hvalid]
  · rw [blockCycle_of_cmdReady hr, hvalid, if_neg Bool.false_ne_true, deliver_quiet howed]

end Sys2Proof.Proofs

/-! ## MAP and its mapping (R67 to R74)

On a grid of any width a row is walked by one reversal, `serpentine`: the identity on even rows, right to left on
odd ones. It is its own inverse, so quotient and remainder by the width give the coordinate back: O13, and at
width 5 O10, O11 and O12. What MAP does with the index in a ready block is O8 and O9. -/

namespace Sys2Proof.Proofs

open Sys2Proof.Machine Sys2Proof.Safety Sys2Proof.Laws

/-! ### The reversal of the odd rows -/

/-- The place in row `y`, counted from the row's first index, of column `x`; likewise the column of a place. -/
def serpentine (w x y : Nat) : Nat := if y % 2 = 0 then x else w - 1 - x

section
variable {w x y : Nat}

theorem serpentine_even (hy : y % 2 = 0) : serpentine w x y = x := if_pos hy

theorem serpentine_odd (hy : y % 2 = 1) : serpentine w x y = w - 1 - x := if_neg (by omega)

theorem serpentine_lt (hx : x < w) : serpentine w x y < w := by
  unfold serpentine
  split <;> omega

theorem serpentine_serpentine (hx : x < w) : serpentine w (serpentine w x y) y = x := by
  obtain hy | hy := Nat.mod_two_eq_zero_or_one y
  · rw [serpentine_even hy, serpentine_even hy]
  · rw [serpentine_odd hy, serpentine_odd hy]
    omega

/-- Neighbouring columns of a row have neighbouring places. -/
theorem serpentine_succ (hx : x + 1 < w) :
    serpentine w (x + 1) y = serpentine w x y + 1 ∨ serpentine w x y = serpentine w (x + 1) y + 1 := by
  obtain hy | hy := Nat.mod_two_eq_zero_or_one y
  · exact .inl (by rw [serpentine_even hy, serpentine_even hy])
  · exact .inr (by rw [serpentine_odd hy, serpentine_odd hy]; omega)

/-- The last place of a row and the first of the next stand in one column. -/
theorem serpentine_row_end (w y : Nat) : serpentine w (w - 1) y = serpentine w 0 (y + 1) := by
  obtain hy | hy := Nat.mod_two_eq_zero_or_one y
  · rw [serpentine_even hy, serpentine_odd (by omega), Nat.sub_zero]
  · rw [serpentine_odd hy, serpentine_even (by omega), Nat.sub_self]

/-! ### Any width -/

theorem mapIndexWide_eq (w x y : Nat) : mapIndexWide w x y = y * w + serpentine w x y := by
  unfold mapIndexWide serpentine
  split <;> rfl

theorem mapIndexWide_mem_row (hx : x < w) :
    y * w ≤ mapIndexWide w x y ∧ mapIndexWide w x y < (y + 1) * w := by
  have hplace : serpentine w x y < w := serpentine_lt hx
  rw [mapIndexWide_eq, Nat.add_one_mul]
  omega

theorem mapIndexWide_div (hx : x < w) : mapIndexWide w x y / w = y :=
  Nat.div_eq_of_lt_le (mapIndexWide_mem_row hx).1 (mapIndexWide_mem_row hx).2

theorem mapIndexWide_mod (hx : x < w) : mapIndexWide w x y % w = serpentine w x y := by
  rw [mapIndexWide_eq, Nat.mul_add_mod_of_lt (serpentine_lt hx)]

/-- The coordinate is read back from the index: the row by division, the column by the reversal. -/
theorem serpentine_mapIndexWide (hx : x < w) : serpentine w (mapIndexWide w x y % w) y = x := by
  rw [mapIndexWide_mod hx, serpentine_serpentine hx]

end

theorem mapIndexWide_inj {w x y x' y' : Nat} (hx : x < w) (hx' : x' < w)
    (h : mapIndexWide w x y = mapIndexWide w x' y') : x = x' ∧ y = y' := by
  have hy : y = y' := by rw [← mapIndexWide_div (y := y) hx, h, mapIndexWide_div hx']
  subst hy
  refine ⟨?_, rfl⟩
  rw [← serpentine_mapIndexWide (y := y) hx, h, serpentine_mapIndexWide hx']

theorem mapIndexWide_five (x y : Nat) : mapIndexWide 5 x y = mapIndex x y := rfl

/-- Settles O13: a row's indices have the row as their quotient by the width, and the reversal, its own inverse,
gives the column from the remainder. -/
theorem wideMappingIsInjective : Obligations.WideMappingIsInjective :=
  ⟨fun _ _ _ => mapIndexWide_mem_row, fun _ _ _ _ _ => mapIndexWide_inj, mapIndexWide_five⟩

/-! ### The grid of width 5 and its inverse -/

theorem mapIndex_even {y : Nat} (x : Nat) (hy : y % 2 = 0) : mapIndex x y = y * 5 + x := if_pos hy

theorem mapIndex_odd {y : Nat} (x : Nat) (hy : y % 2 = 1) : mapIndex x y = y * 5 + (4 - x) :=
  if_neg (by omega)

theorem mapInverse_eq (i : Nat) : mapInverse i = (serpentine 5 (i % 5) (i / 5), i / 5) := by
  unfold mapInverse serpentine
  split <;> rfl

theorem mapInverse_fst (i : Nat) : (mapInverse i).1 = serpentine 5 (i % 5) (i / 5) := by rw [mapInverse_eq]

theorem mapInverse_snd (i : Nat) : (mapInverse i).2 = i / 5 := by rw [mapInverse_eq]

theorem mapInverse_mapIndex {x y : Nat} (hx : x < 5) : mapInverse (mapIndex x y) = (x, y) := by
  rw [← mapIndexWide_five, mapInverse_eq, mapIndexWide_div hx, serpentine_mapIndexWide hx]

theorem mapIndex_mapInverse (i : Nat) : mapIndex (mapInverse i).1 (mapInverse i).2 = i := by
  rw [← mapIndexWide_five, mapIndexWide_eq, mapInverse_fst, mapInverse_snd,
    serpentine_serpentine (Nat.mod_lt i (by decide)), Nat.div_add_mod']

/-- Settles O10: the two inverse laws, and 25 indices are five rows of five. -/
theorem mappingIsABijection : Obligations.MappingIsABijection := by
  refine ⟨fun x hx y hy => ⟨?_, mapInverse_mapIndex hx⟩, fun i hi => ⟨?_, ?_, mapIndex_mapInverse i,
    mapInverse_snd i, mapInverse_fst i⟩, by decide⟩
  · exact Nat.lt_succ_of_le (mapIndex_le ((coordInRange_iff x y).2 ⟨hx, hy⟩))
  · rw [mapInverse_fst]
    exact serpentine_lt (Nat.mod_lt i (by decide))
  · rw [mapInverse_snd]
    omega

/-- Inside a row the next index is in the next column, to one side or the other (R71). -/
theorem mapInverse_succ_in_row {i : Nat} (hi : i % 5 < 4) :
    (mapInverse (i + 1)).2 = (mapInverse i).2 ∧
      ((mapInverse (i + 1)).1 = (mapInverse i).1 + 1 ∨ (mapInverse i).1 = (mapInverse (i + 1)).1 + 1) := by
  have hrow : (i + 1) / 5 = i / 5 := by omega
  have hplace : (i + 1) % 5 = i % 5 + 1 := by omega
  rw [mapInverse_eq, mapInverse_eq, hrow, hplace]
  exact ⟨rfl, serpentine_succ (by omega)⟩

/-- At the end of a row the next index is in the same column of the next row (R71). -/
theorem mapInverse_succ_at_row_end {i : Nat} (hi : i % 5 = 4) :
    (mapInverse (i + 1)).1 = (mapInverse i).1 ∧ (mapInverse (i + 1)).2 = (mapInverse i).2 + 1 := by
  have hrow : (i + 1) / 5 = i / 5 + 1 := by omega
  have hplace : (i + 1) % 5 = 0 := by omega
  rw [mapInverse_eq, mapInverse_eq, hrow, hplace, hi]
  exact ⟨(serpentine_row_end 5 (i / 5)).symm, rfl⟩

/-- Settles O11: by the parity of the row, and at consecutive indices by whether the row ends between them. -/
theorem serpentineProperty : Obligations.SerpentineProperty := by
  refine ⟨fun x _ y _ hy => ?_, fun x hx y _ hy => ?_, rfl, rfl, rfl, rfl, rfl, rfl, rfl, rfl,
    fun y _ => ?_, fun i _ => ?_⟩
  · rw [mapIndex_even _ hy, mapIndex_even _ hy, Nat.add_assoc]
  · rw [mapIndex_odd _ hy, mapIndex_odd _ hy]
    omega
  · exact (mapInverse_succ_at_row_end (i := 5 * y + 4) (by omega)).1.symm
  · obtain hi | hi : i % 5 < 4 ∨ i % 5 = 4 := by omega
    · exact .inl (mapInverse_succ_in_row hi)
    · exact .inr (mapInverse_succ_at_row_end hi)

/-- The five indices of a column, row by row (R72). -/
theorem mapIndex_column {x : Nat} (hx : x < 5) :
    mapIndex x 0 = x ∧ mapIndex x 1 = 9 - x ∧ mapIndex x 2 = 10 + x ∧ mapIndex x 3 = 19 - x ∧
      mapIndex x 4 = 20 + x := by
  rw [mapIndex_even x (y := 0) rfl, mapIndex_odd x (y := 1) rfl, mapIndex_even x (y := 2) rfl,
    mapIndex_odd x (y := 3) rfl, mapIndex_even x (y := 4) rfl]
  omega

/-- Settles O12: a row is a quotient by 5. -/
theorem rowsAndColumns : Obligations.RowsAndColumns := by
  refine ⟨fun y _ i _ => ?_, fun x hx => ?_⟩
  · rw [mapInverse_snd]
    omega
  · obtain ⟨h0, h1, h2, h3, h4⟩ := mapIndex_column hx
    simp [List.range_succ, h0, h1, h2, h3, h4]

/-! ### MAP in a ready block -/

/-- MAP on the grid answers the index (R67). -/
theorem exec_map_onGrid {x y : Nat} {s : State} (hin : coordInRange x y = true) (hr : ready s = true) :
    exec (.map x y) s = .next (answered s (okRsp (mapIndex x y))) := by
  have hrun : exec (.map x y) s = _ := runCommand_guarded hr
  rw [hrun, if_pos hin, deliver_complete_accept]

/-- MAP off the grid raises OutOfRange with its word (R68). -/
theorem exec_map_offGrid {x y : Nat} {s : State} (hout : coordInRange x y = false) (hr : ready s = true) :
    exec (.map x y) s = .next (raised .outOfRange (encode (.map x y)) s) := by
  have hrun : exec (.map x y) s = _ := runCommand_guarded hr
  rw [hrun, if_neg (by simp [hout]), deliver_raise_accept]

/-- An operand that fits its field is its field's bits (R54, R62). -/
theorem operandBits_of_lt {n v : Nat} (hn : n ≤ 32) (hv : v < 2 ^ n) : operandBits n v = BitVec.ofNat 32 v := by
  apply BitVec.eq_of_toNat_eq
  rw [toNat_operandBits hn hv, BitVec.toNat_ofNat,
    Nat.mod_eq_of_lt (hv.trans_le (Nat.pow_le_pow_right (by decide) hn))]

/-- Settles O8: by whether the coordinate is on the grid; the word's operands fit their fields. -/
theorem mapAnswersTheIndex : Obligations.MapAnswersTheIndex := by
  refine ⟨fun x y s _ hr => ?_, fun x y hwf => ?_, by decide⟩
  · split
    next hout => exact exec_map_offGrid ((coordInRange_false x y).2 hout) hr
    next hin => exact exec_map_onGrid ((coordInRange_iff x y).2 (by omega)) hr
  · obtain ⟨hx, hy⟩ := (wellFormed_map_iff x y).1 hwf
    rw [encode, operandBits_of_lt (by decide) hy, operandBits_of_lt (by decide) hx]

/-- A fault raised where no response is owed, field by field (R121). -/
theorem raised_of_owed_none {s : State} (ho : s.owed = none) (c : Cause) (info : Word) :
    raised c info s =
      { s with
        cmds := s.cmds.tail, fault := { cause := c, info := info },
        rsp := some (errRsp c), rsps := s.rsps ++ [errRsp c] } := by
  rw [raised, answered, ho]

/-- Settles O9: MAP off the grid raises OutOfRange, whose response is `0x101`. -/
theorem mapOutOfRangeRaises : Obligations.MapOutOfRangeRaises := by
  intro x y s _ hout hr
  obtain ⟨howed, -⟩ := (ready_iff s).1 hr
  have hrsp : errRsp .outOfRange = 0x101#9 := by decide
  rw [exec_map_offGrid ((coordInRange_false x y).2 hout) hr, raised_of_owed_none howed, hrsp]

end Sys2Proof.Proofs

/-! ## SET and CLEAR in a ready block (R75 to R80)

What either leaves of the memory is `setMem_pixel` and `clearMem_pixel`; here is what the rest of the state keeps
(O14, O15), and the one Pixel that stands after CLEAR and SET (O16). -/

namespace Sys2Proof.Proofs

open Sys2Proof.Machine Sys2Proof.Safety Sys2Proof.Laws

/-- SET out of range answers `0x101` and leaves its word in the fault register (R76). -/
theorem exec_set_outOfRange_state {s : State} {k : Nat} (hr : ready s = true) (hk : 25 ≤ k) (r g b : Byte) :
    exec (.set k r g b) s = .next
      { s with
        cmds := s.cmds.tail, fault := { cause := .outOfRange, info := encode (.set k r g b) },
        rsp := some 0x101#9, rsps := s.rsps ++ [0x101#9] } := by
  obtain ⟨howed, -⟩ := (ready_iff s).1 hr
  have hrsp : errRsp .outOfRange = 0x101#9 := by decide
  rw [exec_set_outOfRange hr hk, raised_of_owed_none howed, hrsp]

/-- Settles O14: in range SET leaves the memories that `SetMem` relates, out of range it raises; the index fits its
field of the word. -/
theorem setWritesOnePixel : Obligations.SetWritesOnePixel := by
  refine ⟨fun k r g b s hk hr hw => ?_, fun k r g b s hk _ hr => exec_set_outOfRange_state hr hk r g b,
    fun k r g b hk => ?_, by decide⟩
  · have hk : k < 25 := Nat.lt_succ_of_le hk
    obtain ⟨m, ht, hinside, hother, hread⟩ := exec_set_inRange hr hk r g b
    obtain ⟨-, hpixel⟩ := hinside hw
    exact ⟨m, ht, hpixel hk, hother, hread⟩
  · rw [encode, operandBits_of_lt (by decide) hk]

/-- Settles O15: CLEAR leaves the memories that `ClearMem` relates; byte 75 would be of Pixel 25. -/
theorem clearBlackensEveryPixel : Obligations.ClearBlackensEveryPixel := by
  refine ⟨fun s hr hw => ?_, rfl⟩
  obtain ⟨m, ht, hinside, hread⟩ := exec_clear_of_ready hr
  obtain ⟨-, hblack⟩ := hinside hw
  exact ⟨m, ht, hblack, fun a ha => hread a (by omega)⟩

/-- After CLEAR and SET of Pixel `i` the rest of the PixelBuffer is black (R80). -/
theorem setMem_pixel_of_clearMem {m₀ m n : Memory} {i j : Nat} {p : Pixel} (hi : i < 25) (hj : j < 25)
    (hw : Memory.wf m₀ = true) (hclear : ClearMem m₀ m) (hset : SetMem i p m n) :
    Memory.pixel n j = if j = i then p else Pixel.black := by
  obtain ⟨hwm, hm⟩ := clearMem_pixel hw hclear
  obtain ⟨-, hn⟩ := setMem_pixel hi hwm hset
  rw [hn, hm, if_pos hj]

theorem pixel_eq_black_iff (r g b : Byte) :
    (⟨r, g, b⟩ : Pixel) = Pixel.black ↔ (r, g, b) = (0, 0, 0) := by
  simp [Pixel.black]

/-- Settles O16: `setMem_pixel_of_clearMem` says each Pixel, and Pixel `i` is black exactly if the colour is. -/
theorem clearThenSetLightsOnePixel : Obligations.ClearThenSetLightsOnePixel := by
  intro i r g b s hi hr hw
  have hi : i < 25 := Nat.lt_succ_of_le hi
  obtain ⟨m, ht, hclear⟩ := exec_clear_of_ready hr
  obtain ⟨n, hu, hset⟩ := exec_set_inRange (ready_written hr (okRsp 0) m) hi r g b
  have hset_i : Memory.pixel n i = ⟨r, g, b⟩ :=
    (setMem_pixel_of_clearMem hi hi hw hclear hset).trans (if_pos rfl)
  have hother : ∀ j < 25, j ≠ i → Memory.pixel n j = Pixel.black := fun j hj hji =>
    (setMem_pixel_of_clearMem hi hj hw hclear hset).trans (if_neg hji)
  refine ⟨_, _, ht, hu, hset_i, hother, fun hcolour j hj => ⟨fun hlit => ?_, ?_⟩, fun hcolour j hj => ?_⟩
  · exact not_imp_comm.1 (hother j hj) hlit
  · rintro rfl
    rw [hset_i]
    exact mt (pixel_eq_black_iff r g b).1 hcolour
  · obtain rfl | hji := eq_or_ne j i
    · exact hset_i.trans ((pixel_eq_black_iff r g b).2 hcolour)
    · exact hother j hj hji

end Sys2Proof.Proofs

/-! ## The trace as a sequence of frames (R91, R92)

`frameScan` reads the trace from the left, so each step that appends to it only continues the scan
(`frameScan_append`): an accepted byte is one more of the burst in flight, a settle closes 75 of them. O43. -/

namespace Sys2Proof.Proofs

open Sys2Proof.Machine Sys2Proof.Safety Sys2Proof.Laws

theorem traceFramed_iff (s : State) : traceFramed s = true ↔ frameScan 0 s.trace = some s.txPos.toNat := by
  simp [traceFramed]

/-- The position and the trace are all that framing speaks of. -/
theorem traceFramed_of_same {s t : State} (hf : traceFramed s = true) (hpos : t.txPos = s.txPos)
    (htrace : t.trace = s.trace) : traceFramed t = true := by
  simpa only [traceFramed, hpos, htrace] using hf

/-- The position counts the accepted byte, and 75 bytes at most stand together (R91). -/
theorem byteAccepted_traceFramed {s : State} (hpos : s.txPos.toNat ≤ 74) (hf : traceFramed s = true) :
    traceFramed (State.byteAccepted s) = true := by
  rw [traceFramed_iff] at hf ⊢
  have hnext : (s.txPos + 1).toNat = s.txPos.toNat + 1 := by bv_omega
  have hroom : s.txPos.toNat < Config.frameBytes := Nat.lt_succ_of_le hpos
  rw [byteAccepted_trace, byteAccepted_txPos, hnext, frameScan_append hf, frameScan, if_pos hroom, frameScan]

theorem collaboratorStep_traceFramed {s : State} (hpos : s.txPos.toNat ≤ 74) (hf : traceFramed s = true) :
    traceFramed s.collaboratorStep = true := by
  obtain ⟨-, h⟩ | ⟨-, -, h⟩ | ⟨-, -, h⟩ := collaboratorStep_cases s <;> rw [h]
  · exact byteAccepted_traceFramed hpos hf
  · exact traceFramed_of_same hf rfl rfl
  · exact traceFramed_of_same hf rfl rfl

/-- The settle's end closes a frame of exactly 75 bytes (R92). -/
theorem settleDone_traceFramed {s : State} (hpos : s.txPos.toNat = 75) (hf : traceFramed s = true) :
    traceFramed (State.settleDone s) = true := by
  rw [traceFramed_iff, hpos] at hf
  rw [traceFramed_iff, settleDone_trace, settleDone_txPos, frameScan_append hf]
  rfl

theorem timerStep_traceFramed {s : State} (hpos : s.txPos.toNat = 75) (hf : traceFramed s = true) :
    traceFramed s.timerStep = true := by
  obtain ⟨-, h⟩ | ⟨-, h⟩ := timerStep_cases s <;> rw [h]
  · exact traceFramed_of_same (s := State.settleDone { s with timer := s.timer.advance })
      (settleDone_traceFramed hpos hf) rfl rfl
  · exact traceFramed_of_same hf rfl rfl

/-- A command sends nothing, and it is executed in an idle block only, so it leaves the position at 0. -/
theorem executes_traceFramed {i : Instr} {s t : State} (hr : ready s = true) (hp : phaseOk s = true)
    (h : Executes i s t) (hf : traceFramed s = true) : traceFramed t = true := by
  obtain ⟨-, hidle, -⟩ := (ready_iff s).1 hr
  have hs : s.txPos = 0 := ((phaseOk_iff s).1 hp).1 hidle
  obtain ⟨htrace, -⟩ := executes_trace_warm h
  obtain ⟨-, hpos⟩ | ⟨-, -, hpos⟩ := executes_phase h
  · exact traceFramed_of_same hf hpos htrace
  · exact traceFramed_of_same hf (hpos.trans hs.symm) htrace

/-- Settles O43: of all a step can do to the block (`step_block`), only an accepted byte, at a position of 74 at
most, and a settle's end, at position 75, append to the trace; a reset empties it. -/
theorem stepKeepsTheTraceFramed : Obligations.StepKeepsTheTraceFramed := by
  intro s t hb hf hstep
  obtain ⟨-, hp⟩ := (blockOk_iff s).1 hb
  obtain ⟨-, hburst, hsettle⟩ := (phaseOk_iff s).1 hp
  cases step_block hstep with
  | reset =>
    rw [warmReset_cases]
    rfl
  | release => exact traceFramed_of_same hf (release_txPos s) (release_trace s)
  | collaborator hm =>
    obtain ⟨-, -, hphase, -⟩ := (mover_says s).2.2.1 hm
    exact collaboratorStep_traceFramed (hburst hphase) hf
  | timer hm =>
    obtain ⟨-, -, hphase, -⟩ := (mover_says s).2.2.2.1 hm
    exact timerStep_traceFramed (hsettle hphase) hf
  | executed _ _ hr he => exact executes_traceFramed hr hp he hf
  | illegal => exact traceFramed_of_same hf rfl rfl
  | unchanged hsame =>
    obtain ⟨-, -, hpos, -, htrace⟩ := hsame
    exact traceFramed_of_same hf hpos htrace

end Sys2Proof.Proofs

/-! ## The packetizer step by step (R86 to R94)

Each rule about FLUSH is one step of one agent: its start (O20), a byte accepted (O21) or refused (O22), the settle's
end (O23), a byte never answered (O24), a reset (O25); none writes the PixelBuffer (O30). -/

namespace Sys2Proof.Proofs

open Sys2Proof.Machine Sys2Proof.Safety Sys2Proof.Laws

/-! ### What the block offers -/

theorem offered_of_txValid {s : State} (hv : s.txValid = true) :
    s.offered = some (byteAt s.mem s.txPos.toNat) := if_pos hv

theorem offered_of_not_txValid {s : State} (hv : s.txValid = false) : s.offered = none := by
  simp [State.offered, hv]

theorem offered_of_faulted {s : State} (hf : s.faulted = true) : s.offered = none :=
  offered_of_not_txValid (by simp [State.txValid, hf])

/-- The start of a burst offers byte 0 (R86). -/
theorem offered_startBurst {s : State} (hf : s.faulted = false) :
    (State.startBurst s).offered = some (byteAt s.mem 0) :=
  offered_of_txValid ((txValid_iff _).2 ⟨rfl, hf⟩)

/-! ### The position as a number -/

theorem txPos_succ (x : BitVec 7) : x + 1 = BitVec.ofNat 7 (x.toNat + 1) := by
  apply BitVec.eq_of_toNat_eq
  simp

theorem txPos_succ_eq_iff {x : BitVec 7} (h : x.toNat ≤ 74) : x + 1 = 75 ↔ x.toNat + 1 = 75 := by
  bv_omega

/-- After byte `k` the block offers byte `k + 1`, and after byte 74 none (R87). -/
theorem offered_byteAccepted {s : State} (hf : s.faulted = false) (hpos : s.txPos.toNat ≤ 74) :
    (State.byteAccepted s).offered =
      if s.txPos.toNat + 1 = 75 then none else some (byteAt s.mem (s.txPos.toNat + 1)) := by
  have hphase : (State.byteAccepted s).txPhase = if s.txPos.toNat + 1 = 75 then .settle else .burst := by
    simp only [byteAccepted_txPhase, txPos_succ_eq_iff hpos]
  have hnext : (State.byteAccepted s).txPos.toNat = s.txPos.toNat + 1 := by
    rw [byteAccepted_txPos]
    bv_omega
  split
  next hlast => exact offered_of_not_txValid (by rw [State.txValid, hphase, if_pos hlast]; rfl)
  next hmore =>
    have hv : (State.byteAccepted s).txValid = true := (txValid_iff _).2 ⟨by rw [hphase, if_neg hmore], hf⟩
    rw [offered_of_txValid hv, hnext, byteAccepted_mem]

/-! ### The start of a burst -/

theorem exec_flush_of_ready {s : State} (hr : ready s = true) :
    exec .flush s = .next { s with cmds := s.cmds.tail, txPhase := .burst, txPos := 0 } := by
  obtain ⟨t, ht, rfl⟩ := exec_of_ready hr .flush
  exact ht

/-- Settles O20: a ready block executes the FLUSH, and a burst's start offers byte 0. -/
theorem flushStartsABurst : Obligations.FlushStartsABurst := fun s hr =>
  ⟨exec_flush_of_ready hr, offered_startBurst (s := State.accept s) (ready_not_faulted hr)⟩

/-! ### A step in a burst -/

section
variable {s : State}

theorem step_burst (hq : quiet s = true) (hb : s.txPhase = .burst) (hf : s.faulted = false) :
    step s = .next s.collaboratorStep :=
  step_collaborator (mover_collaborator hq hb hf)

theorem collaboratorStep_accepted (ha : s.tx.answer = .accepted) :
    s.collaboratorStep = State.byteAccepted { s with tx := s.tx.advance } := by
  simp [State.collaboratorStep, ha]

theorem collaboratorStep_failed (ha : s.tx.answer = .failed) (hfall : s.params.txFallible = true) :
    s.collaboratorStep = State.deliver (State.byteFailed { s with tx := s.tx.advance }) := by
  simp [State.collaboratorStep, ha, hfall]

/-- Where `TX_FALLIBLE` is false a failed answer is no answer (log 5). -/
theorem collaboratorStep_infallible (ha : s.tx.answer = .failed) (hfall : s.params.txFallible = false) :
    s.collaboratorStep = { s with tx := s.tx.advance } := by
  simp [State.collaboratorStep, ha, hfall]

theorem collaboratorStep_silent (ha : s.tx.answer = .silent) :
    s.collaboratorStep = { s with tx := s.tx.advance } := by
  simp [State.collaboratorStep, ha]

/-- The accepted byte's step, the position counted as a number (R87). -/
theorem byteAccepted_eq (hpos : s.txPos.toNat ≤ 74) :
    State.byteAccepted s =
      { s with
        trace := s.trace ++ [.byte (byteAt s.mem s.txPos.toNat)],
        txPos := BitVec.ofNat 7 (s.txPos.toNat + 1), settleCount := 0,
        txPhase := if s.txPos.toNat + 1 = 75 then .settle else .burst } := by
  simp only [State.byteAccepted, txPos_succ_eq_iff hpos]
  rw [txPos_succ]

/-- The refused byte's step, with no response owed before it (R88). -/
theorem deliver_byteFailed (ho : s.owed = none) :
    State.deliver (State.byteFailed s) =
      { s with
        fault := { cause := .ioFailure, info := s.txPos.setWidth 32 },
        rsp := some 0x103#9, rsps := s.rsps ++ [0x103#9] } := by
  have hrsp : errRsp .ioFailure = 0x103#9 := by decide
  simp [State.deliver, State.byteFailed, State.raise, State.recordFault, hrsp, ho]

/-- The step of a collaborator that accepts the byte on offer (R87). -/
theorem step_accepted (hq : quiet s = true) (hb : s.txPhase = .burst) (hf : s.faulted = false)
    (hpos : s.txPos.toNat ≤ 74) (ha : s.tx.answer = .accepted) :
    step s = .next
      { s with
        tx := s.tx.advance, trace := s.trace ++ [.byte (byteAt s.mem s.txPos.toNat)],
        txPos := BitVec.ofNat 7 (s.txPos.toNat + 1), settleCount := 0,
        txPhase := if s.txPos.toNat + 1 = 75 then .settle else .burst } := by
  rw [step_burst hq hb hf, collaboratorStep_accepted ha, byteAccepted_eq (s := { s with tx := s.tx.advance }) hpos]

/-- The step of a collaborator that refuses it, where it may (R88). -/
theorem step_refused (hq : quiet s = true) (hb : s.txPhase = .burst) (hf : s.faulted = false)
    (hfall : s.params.txFallible = true) (ha : s.tx.answer = .failed) :
    step s = .next
      { s with
        tx := s.tx.advance, fault := { cause := .ioFailure, info := s.txPos.setWidth 32 },
        rsp := some 0x103#9, rsps := s.rsps ++ [0x103#9] } := by
  obtain ⟨-, -, howed⟩ := (quiet_iff s).1 hq
  rw [step_burst hq hb hf, collaboratorStep_failed ha hfall,
    deliver_byteFailed (s := { s with tx := s.tx.advance }) howed]

/-- The settle's end, with no response owed before it (R89, R93). -/
theorem deliver_settleDone (ho : s.owed = none) :
    State.deliver (State.settleDone s) =
      { s with
        trace := s.trace ++ [.settle], txPhase := .idle, txPos := 0, settleCount := 0,
        rsp := some 0#9, rsps := s.rsps ++ [0#9] } := by
  have hrsp : okRsp 0 = 0#9 := by decide
  simp [State.deliver, State.settleDone, State.complete, hrsp, ho]

end

/-- Settles O21: the collaborator moves, and its accepted byte counts the position up. -/
theorem acceptedByteAdvancesTheBurst : Obligations.AcceptedByteAdvancesTheBurst := by
  intro s hq hb hf hpos ha
  refine ⟨offered_of_txValid ((txValid_iff s).2 ⟨hb, hf⟩), step_accepted hq hb hf hpos ha, fun t ht => ?_⟩
  rw [step_burst hq hb hf, collaboratorStep_accepted ha] at ht
  obtain rfl := next_inj ht
  exact offered_byteAccepted hf hpos

/-! ### A block that is faulted -/

/-- What an executed command leaves of the reset input and of the reset in progress. -/
theorem executes_reset {i : Instr} {s t : State} (h : Executes i s t) :
    t.rst = s.rst ∧ t.inReset = s.inReset := by
  cases i with
  | map x y => obtain ⟨-, rfl⟩ | ⟨-, rfl⟩ := h <;> exact ⟨rfl, rfl⟩
  | set k r g b => obtain ⟨-, m, rfl, -⟩ | ⟨-, rfl⟩ := h <;> exact ⟨rfl, rfl⟩
  | clear =>
    obtain ⟨m, rfl, -⟩ := h
    exact ⟨rfl, rfl⟩
  | flush =>
    obtain rfl : t = _ := h
    exact ⟨rfl, rfl⟩

/-- No step asserts the reset input or begins a reset of the word level. -/
theorem step_keeps_reset {s t : State} (h : step s = .next t) (hrst : s.rst = false)
    (hin : s.inReset = false) : t.rst = false ∧ t.inReset = false := by
  suffices hsame : t.rst = s.rst ∧ t.inReset = s.inReset by
    obtain ⟨hr, hi⟩ := hsame
    exact ⟨hr.trans hrst, hi.trans hin⟩
  obtain ⟨hm, rfl⟩ | ⟨hm, rfl⟩ | ⟨-, rfl⟩ | ⟨-, rfl⟩ | ⟨-, rfl⟩ | ⟨-, rfl⟩ |
    ⟨w, i, -, -, hexec⟩ | ⟨w, -, -, hexec⟩ := step_next h
  · exact absurd hm (mover_ne_reset hrst)
  · exact absurd hm (mover_ne_release hin)
  · obtain ⟨-, hc⟩ | ⟨-, -, hc⟩ | ⟨-, -, hc⟩ := collaboratorStep_cases s <;> rw [hc] <;> exact ⟨rfl, rfl⟩
  · obtain ⟨-, hc⟩ | ⟨-, hc⟩ := timerStep_cases s <;> rw [hc] <;> exact ⟨rfl, rfl⟩
  · exact ⟨rfl, rfl⟩
  · obtain ⟨cmds, host, hc, -⟩ := hostStep_frame s
    rw [hc]
    exact ⟨rfl, rfl⟩
  · obtain ⟨-, rfl⟩ | ⟨-, -, rfl⟩ | ⟨-, he⟩ := exec_cases hexec
    · exact ⟨rfl, rfl⟩
    · exact ⟨rfl, rfl⟩
    · exact executes_reset he
  · obtain ⟨-, rfl⟩ | ⟨-, -, rfl⟩ | ⟨-, rfl⟩ := execIllegal_cases hexec <;> exact ⟨rfl, rfl⟩

/-- With no reset, no step touches a faulted block (R126). -/
theorem step_of_faulted {s t : State} (hf : s.faulted = true) (hrst : s.rst = false)
    (hin : s.inReset = false) (h : step s = .next t) : sameBlock s t := by
  cases step_block h with
  | reset hm => exact absurd hm (mover_ne_reset hrst)
  | release hm => exact absurd hm (mover_ne_release hin)
  | collaborator hm =>
    obtain ⟨-, -, -, hsound⟩ := (mover_says s).2.2.1 hm
    simp [hf] at hsound
  | timer hm =>
    obtain ⟨-, -, -, hsound⟩ := (mover_says s).2.2.2.1 hm
    simp [hf] at hsound
  | executed _ _ hr => simp [ready_not_faulted hr] at hf
  | illegal _ hr => simp [ready_not_faulted hr] at hf
  | unchanged hsame => exact hsame

/-- A faulted block with no reset about, whose trace is `trace`: what every step keeps of it. -/
def HaltedWith (trace : List TxEvent) (s : State) : Prop :=
  s.faulted = true ∧ s.rst = false ∧ s.inReset = false ∧ s.trace = trace

theorem step_keeps_haltedWith {trace : List TxEvent} {s t : State} (hs : HaltedWith trace s)
    (h : step s = .next t) : HaltedWith trace t := by
  obtain ⟨hf, hrst, hin, rfl⟩ := hs
  obtain ⟨-, -, -, hfault, htrace⟩ := step_of_faulted hf hrst hin h
  obtain ⟨hrst', hin'⟩ := step_keeps_reset h hrst hin
  exact ⟨by rwa [State.faulted, hfault], hrst', hin', htrace⟩

theorem run_of_haltedWith {trace : List TxEvent} {n : Nat} {s t : State} (hs : HaltedWith trace s)
    (h : run n s = .next t) : t.trace = trace := by
  obtain ⟨-, -, -, htrace⟩ := run_keeps (fun _ _ => step_keeps_haltedWith) hs h
  exact htrace

/-! ### A refused byte -/

theorem collaboratorStep_fault_of_infallible {s : State} (hfall : s.params.txFallible = false) :
    s.collaboratorStep.fault = s.fault := by
  obtain ⟨-, h⟩ | ⟨-, hfall', -⟩ | ⟨-, -, h⟩ := collaboratorStep_cases s
  · rw [h, byteAccepted_fault]
  · simp [hfall] at hfall'
  · rw [h]

@[simp] theorem timerStep_fault (s : State) : s.timerStep.fault = s.fault := by
  obtain ⟨-, h⟩ | ⟨-, h⟩ := timerStep_cases s <;> rw [h]
  rfl

/-- Where the collaborator may not fail, no step makes the fault an IoFailure (R88). -/
theorem step_ioFailure {s t : State} (hfall : s.params.txFallible = false) (h : step s = .next t)
    (hio : t.fault.cause = .ioFailure) : s.fault.cause = .ioFailure := by
  cases step_block h with
  | reset =>
    rw [warmReset_cases] at hio
    cases ha : s.tx.available <;> simp [ha] at hio
  | release =>
    obtain ⟨-, hc⟩ | ⟨-, hc⟩ := release_cases s <;> rw [hc] at hio
    · exact hio
    · cases hio
  | collaborator => rwa [collaboratorStep_fault_of_infallible hfall] at hio
  | timer => rwa [timerStep_fault] at hio
  | executed _ _ _ he =>
    obtain hc | hc := executes_fault he <;> rw [hc] at hio
    · exact hio
    · cases hio
  | illegal => cases hio
  | unchanged hsame =>
    obtain ⟨-, -, -, hfault, -⟩ := hsame
    rwa [hfault] at hio

/-- Settles O22: the failed answer raises IoFailure (`step_refused`), and a faulted block's trace stays as it
is in every run (`run_of_haltedWith`). -/
theorem refusedByteRaisesIoFailure : Obligations.RefusedByteRaisesIoFailure := by
  refine ⟨fun s hq hb hf ha => ⟨fun hfall => ?_, fun hfall => ?_⟩, fun s t => step_ioFailure⟩
  · obtain ⟨hrst, hin, -⟩ := (quiet_iff s).1 hq
    exact ⟨_, step_refused hq hb hf hfall ha, rfl, offered_of_faulted rfl,
      fun n u => run_of_haltedWith ⟨rfl, hrst, hin, rfl⟩⟩
  · rw [step_burst hq hb hf, collaboratorStep_infallible ha hfall]

/-! ### A step in a settle -/

theorem step_settle {s : State} (hq : quiet s = true) (hs : s.txPhase = .settle) (hf : s.faulted = false) :
    step s = .next s.timerStep :=
  step_timer (mover_timer hq hs hf)

theorem timerStep_done {s : State} (ha : s.timer.answer = .done) :
    s.timerStep = State.deliver (State.settleDone { s with timer := s.timer.advance }) := by
  simp [State.timerStep, ha]

theorem timerStep_running {s : State} (ha : s.timer.answer = .running) :
    s.timerStep = { s with timer := s.timer.advance } := by
  simp [State.timerStep, ha]

/-- The step of a timer that fires (R89). -/
theorem step_done {s : State} (hq : quiet s = true) (hs : s.txPhase = .settle) (hf : s.faulted = false)
    (ha : s.timer.answer = .done) :
    step s = .next
      { s with
        timer := s.timer.advance, trace := s.trace ++ [.settle], txPhase := .idle, txPos := 0,
        settleCount := 0, rsp := some 0#9, rsps := s.rsps ++ [0#9] } := by
  obtain ⟨-, -, howed⟩ := (quiet_iff s).1 hq
  rw [step_settle hq hs hf, timerStep_done ha,
    deliver_settleDone (s := { s with timer := s.timer.advance }) howed]

/-- The step of a timer that still runs (R156). -/
theorem step_running {s : State} (hq : quiet s = true) (hs : s.txPhase = .settle) (hf : s.faulted = false)
    (ha : s.timer.answer = .running) : step s = .next { s with timer := s.timer.advance } := by
  rw [step_settle hq hs hf, timerStep_running ha]

/-- Settles O23: the timer moves, and does what it answers. -/
theorem settleDoneCompletesTheFlush : Obligations.SettleDoneCompletesTheFlush :=
  fun _ hq hs hf => ⟨step_done hq hs hf, step_running hq hs hf⟩

/-! ### A byte that is never answered -/

/-- A collaborator whose list is used up gives its last answer for ever. -/
theorem advance_of_nil {c : Collaborator} (h : c.answers = []) : c.answer = c.rest ∧ c.advance = c := by
  obtain ⟨available, answers, rest⟩ := c
  obtain rfl : answers = [] := h
  exact ⟨rfl, rfl⟩

theorem run_of_fixed {s : State} (h : step s = .next s) (n : Nat) : run n s = .next s := by
  induction n with
  | zero => rfl
  | succ n ih => rw [run_step h, ih]

/-- Settles O24: the silent collaborator's step is a fixed point. -/
theorem unansweredBurstIsStuckForever : Obligations.UnansweredBurstIsStuckForever := by
  intro s n hq hb hf hnil hsilent
  obtain ⟨hanswer, hadvance⟩ := advance_of_nil hnil
  refine run_of_fixed ?_ n
  rw [step_burst hq hb hf, collaboratorStep_silent (hanswer.trans hsilent), hadvance]

/-! ### Reset, and the PixelBuffer -/

theorem step_reset {s : State} (hrst : s.rst = true) : step s = .next s.warmReset := by
  have hm : s.mover = .reset := if_pos hrst
  unfold step
  simp only [hm]

/-- Settles O25: the reset moves before anything else, and with a transmitter it leaves no fault. -/
theorem resetLiftsAStuckBurst : Obligations.ResetLiftsAStuckBurst := by
  intro s hrst havail
  refine ⟨_, step_reset hrst, ?_⟩
  rw [warmReset_cases]
  refine ⟨rfl, ?_, rfl⟩
  simp [State.faulted, havail]

theorem exec_flush_mem {s t : State} (h : exec .flush s = .next t) : t.mem = s.mem := by
  obtain ⟨-, rfl⟩ | ⟨-, -, rfl⟩ | ⟨-, rfl⟩ := exec_cases h <;> rfl

/-- Settles O30: a FLUSH waits, is answered by a faulted block or starts a burst, and neither neighbour's step
writes the memory. -/
theorem flushLeavesThePixelBuffer : Obligations.FlushLeavesThePixelBuffer := by
  refine ⟨fun s t => exec_flush_mem, fun s t hstep hmover => ?_⟩
  obtain hm | hm := hmover
  · obtain rfl := next_inj ((step_collaborator hm).symm.trans hstep)
    exact collaboratorStep_mem s
  · obtain rfl := next_inj ((step_timer hm).symm.trans hstep)
    exact timerStep_mem s

end Sys2Proof.Proofs

/-! ## A frame on the wire (R84, R95, R96)

Byte `k` of a frame is `byteAt` of it, and three bytes are a Pixel: O26; read back in threes a frame is the 25
Pixels (`framePixels_frame`). Its bits: O59. -/

namespace Sys2Proof.Proofs

open Sys2Proof.Machine Sys2Proof.Safety Sys2Proof.Laws

@[simp] theorem frame_length (m : Memory) : (frame m).length = 75 := by simp [frame]

theorem frame_getElem? (m : Memory) {k : Nat} (hk : k < 75) : (frame m)[k]? = some (byteAt m k) := by
  simp [frame, hk]

theorem frame_take (m : Memory) : (frame m).take 75 = frame m := List.take_of_length_le (frame_length m).le

/-- The three bytes of Pixel `i`, in the wire order green, red, blue (R85). -/
theorem byteAt_pixel (m : Memory) (i : Nat) :
    byteAt m (3 * i) = (Memory.pixel m i).g ∧ byteAt m (3 * i + 1) = (Memory.pixel m i).r ∧
      byteAt m (3 * i + 2) = (Memory.pixel m i).b := by
  have hdiv : 3 * i / 3 = i ∧ (3 * i + 1) / 3 = i ∧ (3 * i + 2) / 3 = i := by omega
  have hmod : 3 * i % 3 = 0 ∧ (3 * i + 1) % 3 = 1 ∧ (3 * i + 2) % 3 = 2 := by omega
  simp [byteAt_eq, hdiv, hmod]

/-- Settles O26: the frame lists `byteAt`, which `byteAt_eq` says by the number's remainder. -/
theorem frameLayout : Obligations.FrameLayout := by
  refine fun m => ⟨frame_length m, fun k hk => ?_, fun i hi => ?_⟩
  · rw [frame_getElem? m hk, byteAt_eq]
  · obtain ⟨hg, hr, hb⟩ := byteAt_pixel m i
    rw [frame_getElem? m (by omega), frame_getElem? m (by omega), frame_getElem? m (by omega), hg, hr, hb]
    exact ⟨rfl, rfl, rfl⟩

/-- Bytes in wire order, read back in threes from Pixel `i` on, are the Pixels (R21). -/
theorem framePixels_bytes (m : Memory) (i n : Nat) :
    framePixels ((List.range' (3 * i) (3 * n)).map (byteAt m)) = (List.range' i n).map (Memory.pixel m) := by
  induction n generalizing i with
  | zero => rfl
  | succ n ih =>
    have hbytes : List.range' (3 * i) (3 * (n + 1)) =
        3 * i :: (3 * i + 1) :: (3 * i + 2) :: List.range' (3 * (i + 1)) (3 * n) := rfl
    obtain ⟨hg, hr, hb⟩ := byteAt_pixel m i
    rw [hbytes, List.range'_succ, List.map_cons, List.map_cons, List.map_cons, List.map_cons, framePixels, ih,
      hg, hr, hb]
    rfl

theorem framePixels_frame (m : Memory) : framePixels (frame m) = (List.range 25).map (Memory.pixel m) := by
  rw [frame, List.range_eq_range', List.range_eq_range']
  exact framePixels_bytes m 0 25

theorem wireBits_length (o : BitOrder) (v : Byte) : (wireBits o v).length = 8 := by cases o <;> rfl

theorem burstBits_length (o : BitOrder) (bytes : List Byte) : (burstBits o bytes).length = bytes.length * 8 := by
  simp [burstBits, List.length_flatMap, wireBits_length]

/-- Settles O59: eight bits a byte, by either order. -/
theorem bitViewOfAFrame : Obligations.BitViewOfAFrame := by
  refine ⟨fun v => ⟨rfl, rfl⟩, fun o m => ?_, by decide, by decide⟩
  rw [burstBits_length, frame_length]

end Sys2Proof.Proofs

/-! ## A FLUSH from its start to its end (R83, R98)

`sent k s` is the state of a FLUSH from `s` when `k` bytes are accepted. The collaborator takes it from one `k` to the
next, the timer from `sent 75 s` to `flushed n s`: O27, O28, O29; and the display follows: O32. -/

namespace Sys2Proof.Proofs

open Sys2Proof.Machine Sys2Proof.Safety Sys2Proof.Laws

/-- `s` after a FLUSH was taken and `k` of its bytes were accepted (R86, R87). -/
def sent (k : Nat) (s : State) : State :=
  { s with
    cmds := s.cmds.tail, txPhase := if k = 75 then .settle else .burst, txPos := BitVec.ofNat 7 k,
    settleCount := if k = 0 then s.settleCount else 0,
    trace := s.trace ++ ((frame s.mem).take k).map .byte, tx := afterAnswers k s.tx }

section
variable {s : State}

theorem sent_txPos {k : Nat} (hk : k ≤ 75) : (sent k s).txPos.toNat = k := by
  show (BitVec.ofNat 7 k).toNat = k
  rw [BitVec.toNat_ofNat, Nat.mod_eq_of_lt (by omega)]

/-- The number of the byte on offer, as a fault would report it (R88). -/
theorem sent_txPos_word {k : Nat} (hk : k ≤ 75) : (sent k s).txPos.setWidth 32 = BitVec.ofNat 32 k := by
  apply BitVec.eq_of_toNat_eq
  rw [BitVec.toNat_setWidth, sent_txPos hk, BitVec.toNat_ofNat]

theorem sent_burst {k : Nat} (hk : k < 75) : (sent k s).txPhase = .burst := if_neg (by omega)

/-! ### The burst -/

theorem exec_flush_sent (hr : ready s = true) : exec .flush s = .next (sent 0 s) := by
  rw [exec_flush_of_ready hr]
  simp [sent, afterAnswers]

/-- One byte more (R87). -/
theorem step_sent {k : Nat} (hq : quiet s = true) (hf : s.faulted = false) (hk : k < 75)
    (ha : (afterAnswers k s.tx).answer = .accepted) : step (sent k s) = .next (sent (k + 1) s) := by
  have hpos : (sent k s).txPos.toNat = k := sent_txPos hk.le
  rw [step_accepted (s := sent k s) hq (sent_burst hk) hf (by omega) ha, hpos]
  simp [sent, afterAnswers_succ, frame_take_succ s.mem hk]

/-- The first `k` of `n` bytes that the collaborator accepts. -/
theorem run_sent {n k : Nat} (hq : quiet s = true) (hf : s.faulted = false) (hn : n ≤ 75)
    (ha : accepting n s.tx = true) (hk : k ≤ n) : run k (sent 0 s) = .next (sent k s) := by
  induction k with
  | zero => rfl
  | succ k ih =>
    rw [run_add (ih (by omega)), run_step (step_sent hq hf (by omega) (accepting_answer ha hk)), run_zero]

/-! ### The settle -/

/-- While the timer runs, a settle's steps use up its list and nothing else (R156). -/
theorem run_settling {n k : Nat} (hq : quiet s = true) (hs : s.txPhase = .settle) (hf : s.faulted = false)
    (hn : fires n s.timer = true) (hk : k ≤ n) :
    run k s = .next { s with timer := afterSteps k s.timer } := by
  induction k with
  | zero => rfl
  | succ k ih =>
    have ha : (afterSteps k s.timer).answer = .running := by
      rw [fires_answer hn (by omega), if_neg (by omega)]
    rw [run_add (ih (by omega)),
      run_step (step_running (s := { s with timer := afterSteps k s.timer }) hq hs hf ha), run_zero,
      afterSteps_succ]

/-- The settle's end completes the FLUSH (R89). -/
theorem step_flushed {n : Nat} (hq : quiet s = true) (hf : s.faulted = false) (hn : fires n s.timer = true) :
    step { sent 75 s with timer := afterSteps n s.timer } = .next (flushed n s) := by
  have ha : (afterSteps n s.timer).answer = .done := by rw [fires_answer hn le_rfl, if_pos rfl]
  obtain ⟨-, -, howed⟩ := (quiet_iff s).1 hq
  have hrsp : okRsp 0 = 0#9 := by decide
  rw [step_done (s := { sent 75 s with timer := afterSteps n s.timer }) hq rfl hf ha]
  simp [flushed, answered, sent, frame_take, afterSteps_succ, hrsp, howed]

/-! ### Completed -/

/-- From its start a FLUSH is 75 byte acceptances, `n` steps of the running timer and the settle's end (R83). -/
theorem run_flushed {n : Nat} (hq : quiet s = true) (hf : s.faulted = false) (ha : accepting 75 s.tx = true)
    (hn : fires n s.timer = true) : run (76 + n) (sent 0 s) = .next (flushed n s) := by
  have hsettle : run n (sent 75 s) = .next { sent 75 s with timer := afterSteps n s.timer } :=
    run_settling (s := sent 75 s) hq rfl hf hn le_rfl
  rw [show 76 + n = 75 + (n + 1) by omega, run_add (run_sent hq hf le_rfl ha le_rfl), run_add hsettle,
    run_step (step_flushed hq hf hn), run_zero]

/-- The same from the step that takes the FLUSH. -/
theorem run_flush_command {n : Nat} {rest : List Word} (hq : quiet s = true) (hr : ready s = true)
    (hc : s.cmds = encode .flush :: rest) (ha : accepting 75 s.tx = true) (hn : fires n s.timer = true) :
    run (77 + n) s = .next (flushed n s) := by
  have hstep : step s = .next (sent 0 s) := by
    rw [step_legal (mover_command hq (ready_cmdReady hr) hc) (decode_encode rfl), exec_flush_sent hr]
  rw [show 77 + n = 76 + n + 1 by omega, run_step hstep, run_flushed hq (ready_not_faulted hr) ha hn]

theorem quiet_flushed {n : Nat} (hq : quiet s = true) : quiet (flushed n s) = true := by
  obtain ⟨hrst, hin, -⟩ := (quiet_iff s).1 hq
  exact (quiet_iff _).2 ⟨hrst, hin, rfl⟩

theorem ready_flushed {n : Nat} (hr : ready s = true) : ready (flushed n s) = true := by
  obtain ⟨-, -, hf⟩ := (ready_iff s).1 hr
  exact (ready_iff _).2 ⟨rfl, rfl, hf⟩

end

/-- Settles O27: the start, then `run_flushed`. -/
theorem flushRunsToCompletion : Obligations.FlushRunsToCompletion := fun _ _ hq hr ha hn =>
  ⟨_, exec_flush_sent hr, run_flushed hq (ready_not_faulted hr) ha hn⟩

/-! ### Refused -/

/-- Settles O28: `k` bytes accepted (`run_sent`), then the refused one raises IoFailure. -/
theorem flushFaultsAtTheRefusedByte : Obligations.FlushFaultsAtTheRefusedByte := by
  intro s k hq hr hfall hk hacc ha
  have hk : k < 75 := Nat.lt_succ_of_le hk
  have hf : s.faulted = false := ready_not_faulted hr
  have hstep := step_refused (s := sent k s) hq (sent_burst hk) hf hfall ha
  have hrun : run (k + 1) (sent 0 s) = _ :=
    (run_add (run_sent hq hf hk.le hacc le_rfl)).trans ((run_step hstep).trans (run_zero _))
  refine ⟨_, _, exec_flush_sent hr, hrun, rfl, sent_burst (s := s) hk, sent_txPos (s := s) hk.le, ?_, rfl,
    rfl, ?_⟩
  · simp only [sent_txPos_word hk.le]
  · simp [State.display]

/-! ### The display -/

theorem inv_iff (s : State) : inv s = true ↔ blockOk s = true ∧ traceFramed s = true ∧
    burstFaithful s = true ∧ cursorOk s = true ∧ faultExplained s = true ∧ rspsLegal s = true := by
  simp [inv, and_assoc]

/-- Between two FLUSHes no byte stands after the last settle. -/
theorem openBytes_of_ready {s : State} (hr : ready s = true) (hi : inv s = true) :
    openBytes [] s.trace = [] := by
  obtain ⟨hblock, -, hfaithful, -⟩ := (inv_iff s).1 hi
  obtain ⟨-, hp⟩ := (blockOk_iff s).1 hblock
  obtain ⟨-, hidle, -⟩ := (ready_iff s).1 hr
  exact (burstFaithful_at_zero (((phaseOk_iff s).1 hp).1 hidle)).1 hfaithful

/-- A completed FLUSH latches the PixelBuffer (R21, R99). -/
theorem flushed_display {s : State} (n : Nat) (hr : ready s = true) (hopen : openBytes [] s.trace = []) :
    (flushed n s).display =
      if s.warm then none else some ((List.range 25).map (Memory.pixel s.mem)) := by
  have hlatch : latch [] none (flushed n s).trace = some (framePixels (frame s.mem)) := by
    simp [flushed, latch_append, latch, openBytes_bytes, hopen]
  have hcause : (flushed n s).fault.cause = .none := ready_cause (ready_flushed hr)
  have hwarm : (flushed n s).warm = s.warm := rfl
  simp [State.display, hlatch, hcause, hwarm, framePixels_frame]

/-- After a completed FLUSH no byte stands after the settle. -/
theorem openBytes_flushed (n : Nat) (s : State) : openBytes [] (flushed n s).trace = [] := by
  simp [flushed, openBytes_append, openBytes]

/-- Settles O29: the second FLUSH starts where the first one ended, on the same memory. -/
theorem flushTwiceSendsTheSameFrameTwice : Obligations.FlushTwiceSendsTheSameFrameTwice := by
  intro s rest m n hq hr hc hacc hm hn
  obtain ⟨hfirst, hsecond⟩ := accepting_add (m := 75) (n := 75) hacc
  have hc' : (flushed m s).cmds = encode .flush :: rest := congrArg List.tail hc
  refine ⟨flushed m s, flushed n (flushed m s), run_flush_command hq hr hc hfirst hm,
    run_flush_command (quiet_flushed hq) (ready_flushed hr) hc' hsecond hn, rfl, fun hi => ?_⟩
  rw [flushed_display n (ready_flushed hr) (openBytes_flushed m s), flushed_display m hr (openBytes_of_ready hr hi)]
  rfl

/-- Settles O32: the FLUSH completes, and the display is then the PixelBuffer. -/
theorem displayIsTheBufferAfterAFlush : Obligations.DisplayIsTheBufferAfterAFlush := by
  intro s t n hq hr hi hwarm hacc hn hexec
  obtain rfl := next_inj ((exec_flush_sent hr).symm.trans hexec)
  refine ⟨flushed n s, run_flushed hq (ready_not_faulted hr) hacc hn, fun i hlt => ?_⟩
  rw [State.led, flushed_display n hr (openBytes_of_ready hr hi), hwarm]
  simp [hlt, flushed, answered]

end Sys2Proof.Proofs

/-! ## The burst and the settle at the word level (R64, R89, R91)

A cycle's byte on offer is that of the state it starts in (`cycle_txData`), so a burst has no idle cycle: O58; the
settle's cycles are counted from 0 to the last: O56. -/

namespace Sys2Proof.Proofs

open Sys2Proof.Machine Sys2Proof.Safety Sys2Proof.Laws

section
variable {p q : Pins} {s : State}

/-! ### The byte on offer -/

theorem cycle_txData (hrst : p.rst = false) (hin : s.inReset = false) : (cycle p s).2.txData = s.offered := by
  have hrel : releaseCycle p s = s := by simp [releaseCycle, hin]
  simp only [cycle, hrst, hrel]
  cases p.giveRsp <;> rfl

/-- Giving the response does not show in the next cycle's byte. -/
theorem cycle_next_txData (hp : p.rst = false) (hq : q.rst = false) (hin : s.inReset = false)
    (hkeep : (blockCycle p s).inReset = false) : (cycle q (cycle p s).1).2.txData = (blockCycle p s).offered := by
  rw [cycle_running hp hin]
  cases p.giveRsp with
  | true => exact cycle_txData (s := State.deliver (blockCycle p s)) hq hkeep
  | false => exact cycle_txData hq hkeep

theorem blockCycle_flush (hr : ready s = true) (hvalid : p.cmdValid = true) (hd : decode p.cmd = some .flush) :
    blockCycle p s = State.startBurst s := by
  have heffect : cmdEffect p.cmd = flushEffect := by simp [cmdEffect, hd]
  rw [blockCycle_of_cmdReady (ready_cmdReady hr), if_pos hvalid, heffect, flushEffect,
    guarded_sound (ready_not_faulted hr)]

theorem blockCycle_accepted (hv : s.txValid = true) (hready : p.txReady = true) (herr : p.txErr = false) :
    blockCycle p s = State.byteAccepted s := by
  rw [blockCycle_of_txValid hv]
  simp [byteCycle, hready, herr]

end

/-- Settles O58: the cycle that takes the FLUSH, or byte `k`, leaves the next byte on offer. -/
theorem burstHasNoIdleCycle : Obligations.BurstHasNoIdleCycle := by
  refine ⟨fun p q s hp hq hvalid hd hin hr => ?_, fun p q s hp hq hready herr hin hv hpos => ?_⟩
  · have hcycle := blockCycle_flush hr hvalid hd
    rw [cycle_next_txData hp hq hin (by rwa [hcycle]), hcycle, offered_startBurst (ready_not_faulted hr)]
  · obtain ⟨-, hf⟩ := (txValid_iff s).1 hv
    have hcycle := blockCycle_accepted hv hready herr
    rw [cycle_next_txData hp hq hin (by rwa [hcycle]), hcycle, offered_byteAccepted hf (by omega),
      if_neg (by omega)]

/-! ### The settle's cycles -/

theorem runCycles_append (ps qs : List Pins) (s : State) :
    runCycles (ps ++ qs) s = runCycles qs (runCycles ps s) := by
  induction ps generalizing s with
  | nil => rfl
  | cons p ps ih => exact ih _

/-- A settle cycle that is not the last one only counts. -/
theorem cycle_counts {p : Pins} {s : State} (hs : s.settling = true) (hin : s.inReset = false)
    (ho : s.owed = none) (hrst : p.rst = false) (hmore : s.settleCount + 1 < s.params.nSettle) :
    (cycle p s).1 = { s with settleCount := s.settleCount + 1 } := by
  have hcycle : blockCycle p s = { s with settleCount := s.settleCount + 1 } := by
    rw [blockCycle_of_settling hs]
    exact if_neg (by omega)
  rw [cycle_running hrst hin, hcycle, deliver_quiet (by exact ho), ite_self]

/-- The last settle cycle ends the settle. -/
theorem cycle_settles {p : Pins} {s : State} (hs : s.settling = true) (hin : s.inReset = false)
    (hrst : p.rst = false) (hlast : s.params.nSettle ≤ s.settleCount + 1) :
    (cycle p s).1.txPhase = .idle ∧ (cycle p s).1.trace = s.trace ++ [.settle] := by
  have hcycle : blockCycle p s = State.settleDone s := by
    rw [blockCycle_of_settling hs]
    exact if_pos hlast
  rw [cycle_running hrst hin, hcycle]
  cases p.giveRsp <;> exact ⟨rfl, rfl⟩

/-- Cycles that come before the settle's last one only count. -/
theorem runCycles_counts {ps : List Pins} {s : State} (hs : s.settling = true) (hin : s.inReset = false)
    (ho : s.owed = none) (hrst : ∀ p ∈ ps, p.rst = false)
    (hmore : ps ≠ [] → s.settleCount + ps.length < s.params.nSettle) :
    runCycles ps s = { s with settleCount := s.settleCount + ps.length } := by
  induction ps generalizing s with
  | nil => rfl
  | cons p ps ih =>
    obtain ⟨hp, hps⟩ := List.forall_mem_cons.1 hrst
    have hroom := hmore (List.cons_ne_nil p ps)
    rw [List.length_cons] at hroom
    have hrest := ih (s := { s with settleCount := s.settleCount + 1 }) hs hin ho hps
      fun _ => show s.settleCount + 1 + ps.length < s.params.nSettle by omega
    rw [runCycles, cycle_counts hs hin ho hp (by omega), hrest, List.length_cons, Nat.add_assoc, Nat.add_comm 1]

/-- `N_SETTLE` is a ceiling (R8). -/
theorem nSettle_lasts (p : Params) : p.tSettleUs * p.fClkHz ≤ p.nSettle * 1000000 := by
  unfold Params.nSettle
  omega

/-- Settles O56: all cycles but the last only count, the last one ends the settle. -/
theorem settleLastsItsCycles : Obligations.SettleLastsItsCycles := by
  refine ⟨fun s ps hs hzero hin ho hrst => ⟨fun hshort => ?_, fun hlen => ?_⟩,
    fun p => ⟨Nat.le_add_right _ _, nSettle_lasts p⟩⟩
  · obtain ⟨hphase, -⟩ := (settling_iff s).1 hs
    have hmore (hne : ps ≠ []) : s.settleCount + ps.length < s.params.nSettle := by
      have hpos := List.length_pos_iff.2 hne
      omega
    rw [runCycles_counts hs hin ho hrst hmore]
    exact ⟨hphase, rfl⟩
  · obtain rfl | ⟨qs, q, rfl⟩ := List.eq_nil_or_concat' ps
    · rw [List.length_nil] at hlen
      omega
    · rw [List.length_append, List.length_singleton] at hlen
      have hmore (hne : qs ≠ []) : s.settleCount + qs.length < s.params.nSettle := by
        have hpos := List.length_pos_iff.2 hne
        omega
      rw [runCycles_append, runCycles_counts hs hin ho (fun p hp => hrst p (by simp [hp])) hmore]
      exact cycle_settles (s := { s with settleCount := s.settleCount + qs.length }) hs hin (hrst q (by simp))
        (by show s.params.nSettle ≤ s.settleCount + qs.length + 1; omega)

end Sys2Proof.Proofs

/-! ## The cursor (R101, R102, R105, R113)

The cursor is the host's, and no agent but the host and the reset touches the host (`step_host`). A step of the host
leaves the cursor, puts it at its start or moves it (`hostStep_cursor`): O45 and O47. Moves of one axis add up
modulo 5, and moves of the two axes commute: O48; O54 is the document's walk. -/

namespace Sys2Proof.Proofs

open Sys2Proof.Machine Sys2Proof.Safety Sys2Proof.Laws

/-! ### Who touches the host -/

theorem executes_host {i : Instr} {s t : State} (h : Executes i s t) : t.host = s.host := by
  cases i with
  | map x y => obtain ⟨-, rfl⟩ | ⟨-, rfl⟩ := h <;> rfl
  | set k r g b => obtain ⟨-, m, rfl, -⟩ | ⟨-, rfl⟩ := h <;> rfl
  | clear =>
    obtain ⟨m, rfl, -⟩ := h
    rfl
  | flush => rw [show t = _ from h]

theorem exec_host {i : Instr} {s t : State} (h : exec i s = .next t) : t.host = s.host := by
  obtain ⟨-, rfl⟩ | ⟨-, -, rfl⟩ | ⟨-, he⟩ := exec_cases h
  · rfl
  · rfl
  · exact executes_host he

theorem execIllegal_host {w : Word} {s t : State} (h : execIllegal w s = .next t) : t.host = s.host := by
  obtain ⟨-, rfl⟩ | ⟨-, -, rfl⟩ | ⟨-, rfl⟩ := execIllegal_cases h <;> rfl

@[simp] theorem warmReset_host (s : State) : s.warmReset.host = HostState.restart s.host := by
  simp [warmReset_cases]

@[simp] theorem release_host (s : State) : s.release.host = s.host := by
  obtain ⟨-, h⟩ | ⟨-, h⟩ := release_cases s <;> simp [h]

@[simp] theorem collaboratorStep_host (s : State) : s.collaboratorStep.host = s.host := by
  obtain ⟨-, h⟩ | ⟨-, -, h⟩ | ⟨-, -, h⟩ := collaboratorStep_cases s <;> simp [h]

@[simp] theorem timerStep_host (s : State) : s.timerStep.host = s.host := by
  obtain ⟨-, h⟩ | ⟨-, h⟩ := timerStep_cases s <;> simp [h]

/-- Everything a step can do to the host: a reset starts it anew, its own step, and every other leaves it. -/
theorem step_host {s t : State} (h : step s = .next t) :
    (s.rst = true ∧ t.host = HostState.restart s.host) ∨ (s.mover = .host ∧ t = s.hostStep) ∨
      t.host = s.host := by
  obtain ⟨hm, rfl⟩ | ⟨-, rfl⟩ | ⟨-, rfl⟩ | ⟨-, rfl⟩ | ⟨-, rfl⟩ | hhost |
    ⟨w, i, -, -, hexec⟩ | ⟨w, -, -, hexec⟩ := step_next h
  · exact .inl ⟨(mover_says s).1 hm, warmReset_host s⟩
  · exact .inr (.inr (release_host s))
  · exact .inr (.inr (collaboratorStep_host s))
  · exact .inr (.inr (timerStep_host s))
  · exact .inr (.inr (deliver_host s))
  · exact .inr (.inl hhost)
  · exact .inr (.inr (exec_host hexec))
  · exact .inr (.inr (execIllegal_host hexec))

/-! ### A sample -/

section
variable (s : State) (h : HostState) (button : Button) (rest : List HostAction)

/-- Sampling uses up the line's level and nothing else of the host (R106). -/
@[simp] theorem sampled_cursor : (HostState.sampled h button).cursor = h.cursor := by cases button <;> rfl

theorem hostSample_idle (hline : Line.level (HostState.line s.host button) = true) :
    State.hostSample button rest s = { s with host := { HostState.sampled s.host button with todo := rest } } :=
  if_pos hline

theorem hostSample_pressed (hline : Line.level (HostState.line s.host button) = false) :
    State.hostSample button rest s =
      { s with
        host := { HostState.sampled s.host button with
          cursor := Cursor.move s.host.cursor (buttonAxis s.params.axisA button),
          todo := redraw ++ .wait s.params.tDeadMs :: rest } } :=
  if_neg (by simp [hline])

end

/-! ### What a step of the host does to the cursor -/

/-- The cursor `c'` that the host's step leaves: as before, at its start (R146), or moved by a pressed sample
(R107). -/
def CursorStep (s : State) (c' : Cursor) : Prop :=
  c' = s.host.cursor ∨
  ((∃ rest, s.host.todo = .boot :: rest) ∧ c' = Cursor.reset) ∨
  ∃ button rest, s.host.todo = .sample button :: rest ∧ Line.level (HostState.line s.host button) = false ∧
    c' = Cursor.move s.host.cursor (buttonAxis s.params.axisA button)

theorem hostAct_cursor {s : State} {a : HostAction} {rest : List HostAction} (ht : s.host.todo = a :: rest) :
    CursorStep s (State.hostAct a rest s).host.cursor := by
  cases a with
  | boot => exact .inr (.inl ⟨⟨rest, ht⟩, rfl⟩)
  | clear => exact .inl rfl
  | map => exact .inl rfl
  | set =>
    refine .inl ?_
    unfold State.hostAct
    dsimp only
    split <;> rfl
  | flush => exact .inl rfl
  | sample button =>
    show CursorStep s (State.hostSample button rest s).host.cursor
    cases hline : Line.level (HostState.line s.host button) with
    | true =>
      rw [hostSample_idle s button rest hline]
      exact .inl (sampled_cursor s.host button)
    | false =>
      rw [hostSample_pressed s button rest hline]
      exact .inr (.inr ⟨button, rest, ht, hline, rfl⟩)
  | wait ms => exact .inl rfl

theorem hostStep_cursor (s : State) : CursorStep s s.hostStep.host.cursor := by
  cases hd : s.host.driver with
  | false =>
    refine .inl ?_
    rw [State.hostStep, if_neg (by simp [hd])]
  | true =>
    cases ht : s.host.todo with
    | nil =>
      rw [hostStep_loops hd ht]
      exact .inl rfl
    | cons a rest =>
      rw [hostStep_acts hd ht]
      exact hostAct_cursor ht

/-- With no reset, a step that changes the cursor is a step of the host. -/
theorem step_cursor {s t : State} (h : step s = .next t) (hrst : s.rst = false) :
    t.host.cursor = s.host.cursor ∨ (s.mover = .host ∧ CursorStep s t.host.cursor) := by
  obtain ⟨hrst', -⟩ | ⟨hm, rfl⟩ | hsame := step_host h
  · simp [hrst] at hrst'
  · exact .inr ⟨hm, hostStep_cursor s⟩
  · exact .inl (by rw [hsame])

/-! ### The grid -/

theorem cursorOk_iff (s : State) : cursorOk s = true ↔ s.host.cursor.x < 5 ∧ s.host.cursor.y < 5 :=
  coordInRange_iff _ _

/-- The move along an axis is one of the two (R102). -/
theorem move_eq (c : Cursor) (axis : Axis) : c.move axis = c.moveX ∨ c.move axis = c.moveY := by
  cases axis with
  | x => exact .inl rfl
  | y => exact .inr rfl

/-- A move wraps around, so it stays on the grid. -/
theorem move_onGrid {c : Cursor} (hx : c.x < 5) (hy : c.y < 5) (axis : Axis) :
    (c.move axis).x < 5 ∧ (c.move axis).y < 5 := by
  cases axis with
  | x => exact ⟨Nat.mod_lt _ (by decide), hy⟩
  | y => exact ⟨hx, Nat.mod_lt _ (by decide)⟩

theorem cursorStep_onGrid {s : State} {c' : Cursor} (hs : cursorOk s = true) (h : CursorStep s c') :
    c'.x < 5 ∧ c'.y < 5 := by
  obtain ⟨hx, hy⟩ := (cursorOk_iff s).1 hs
  obtain rfl | ⟨-, rfl⟩ | ⟨button, rest, -, -, rfl⟩ := h
  · exact ⟨hx, hy⟩
  · simp
  · exact move_onGrid hx hy _

theorem step_keeps_cursorOk {s t : State} (hs : cursorOk s = true) (h : step s = .next t) :
    cursorOk t = true := by
  rw [cursorOk_iff]
  obtain ⟨-, hrestart⟩ | ⟨-, rfl⟩ | hsame := step_host h
  · simp [hrestart, HostState.restart]
  · exact cursorStep_onGrid hs (hostStep_cursor s)
  · rw [hsame]
    exact (cursorOk_iff s).1 hs

/-- Settles O45: the start and the moves are on the grid, and of all agents only the host, at its entry point or by
a pressed sample, changes the cursor. -/
theorem cursorStaysOnTheGrid : Obligations.CursorStaysOnTheGrid := by
  refine ⟨cursorOk_launch, fun s t => step_keeps_cursorOk, fun s t hstep hrst hne => ?_⟩
  obtain hsame | ⟨hm, hsame | ⟨hboot, -⟩ | ⟨button, rest, ht, hline, -⟩⟩ := step_cursor hstep hrst
  · exact absurd hsame hne
  · exact absurd hsame hne
  · exact ⟨hm, .inl hboot⟩
  · exact ⟨hm, .inr ⟨button, rest, ht, hline⟩⟩

/-- Settles O47: by `step_cursor` a step leaves the cursor, is at the entry point, or moves along an axis. -/
theorem theTwoMoves : Obligations.TheTwoMoves := by
  refine ⟨fun c => ⟨rfl, rfl⟩, by simp [Cursor.moveX], by simp [Cursor.moveY], fun s t hstep hrst hboot => ?_⟩
  obtain hsame | ⟨-, hsame | ⟨⟨rest, ht⟩, -⟩ | ⟨button, rest, -, -, hmove⟩⟩ := step_cursor hstep hrst
  · exact .inl hsame
  · exact .inl hsame
  · exact absurd (by rw [ht]; rfl) hboot
  · rw [hmove]
    exact .inr (move_eq _ _)

/-! ### Many moves -/

theorem iterate_moveX {x : Nat} (hx : x < 5) (y n : Nat) : Cursor.moveX^[n] ⟨x, y⟩ = ⟨(x + n) % 5, y⟩ := by
  induction n with
  | zero => rw [Nat.add_zero, Nat.mod_eq_of_lt hx, Function.iterate_zero, id]
  | succ n ih =>
    rw [Function.iterate_succ_apply', ih]
    simp [Cursor.moveX, Nat.add_assoc]

theorem iterate_moveY {y : Nat} (hy : y < 5) (x n : Nat) : Cursor.moveY^[n] ⟨x, y⟩ = ⟨x, (y + n) % 5⟩ := by
  induction n with
  | zero => rw [Nat.add_zero, Nat.mod_eq_of_lt hy, Function.iterate_zero, id]
  | succ n ih =>
    rw [Function.iterate_succ_apply', ih]
    simp [Cursor.moveY, Nat.add_assoc]

theorem moveX_commute_moveY : Function.Commute Cursor.moveX Cursor.moveY := fun _ => rfl

/-- The number of moves from one coordinate to another (R105). -/
theorem add_distance_mod {a b : Nat} (ha : a < 5) (hb : b < 5) : (a + (b + 5 - a) % 5) % 5 = b := by omega

/-- Settles O48: the moves add up modulo 5 on their own axis, and the two moves commute. -/
theorem everyCursorReachesEveryOther : Obligations.EveryCursorReachesEveryOther := by
  refine ⟨fun x hx y hy x' hx' y' hy' => ?_, fun m n => moveX_commute_moveY.iterate_iterate m n⟩
  rw [iterate_moveY hy, iterate_moveX hx, add_distance_mod hx hx', add_distance_mod hy hy']

/-- Settles O54: the walk, evaluated. -/
theorem walkAlongTheFirstRow : Obligations.WalkAlongTheFirstRow := by
  unfold Obligations.WalkAlongTheFirstRow
  decide

end Sys2Proof.Proofs

/-! ## The driver's turn (R61, R103, R107, R110, R146)

Before a block that takes commands, and with none on offer, the driver does the next thing it has to do
(`step_hostAct`), or begins its main loop again: O49 and O53. -/

namespace Sys2Proof.Proofs

open Sys2Proof.Machine Sys2Proof.Safety Sys2Proof.Laws

/-- It is the driver's turn, and it has `todo` to do. -/
def DriverTurn (todo : List HostAction) (s : State) : Prop :=
  quiet s = true ∧ s.cmdReady = true ∧ s.cmds = [] ∧ s.host.driver = true ∧ s.host.todo = todo

section
variable {s : State} {a : HostAction} {rest : List HostAction}

theorem step_hostStep (hm : s.mover = .host) : step s = .next s.hostStep := by
  unfold step
  simp only [hm]

/-- The driver does the next thing it has to do. -/
theorem step_hostAct (h : DriverTurn (a :: rest) s) : step s = .next (State.hostAct a rest s) := by
  obtain ⟨hq, hr, hc, hd, ht⟩ := h
  rw [step_hostStep (mover_host hq hr hc), hostStep_acts hd ht]

/-- With nothing left to do it begins the next iteration of its main loop (R110). -/
theorem step_pollCycle (h : DriverTurn [] s) : step s = .next (State.hostDoes (pollCycle s.params) s) := by
  obtain ⟨hq, hr, hc, hd, ht⟩ := h
  rw [step_hostStep (mover_host hq hr hc), hostStep_loops hd ht]

/-! ### The SET and its index -/

theorem hostIndex_of_rsp {r : Rsp} (hr : s.rsp = some r) :
    s.hostIndex = if rspErr r then none else some (rspValue r) := by
  unfold State.hostIndex
  rw [hr]

/-- With a response in hand the driver issues SET of its index, and with an error response it goes on without one
(R61; log 10). -/
theorem hostAct_set {r : Rsp} (hr : s.rsp = some r) :
    State.hostAct .set rest s =
      if rspErr r then State.hostDoes rest s else State.offer (.set (rspValue r) 255 255 255) rest s := by
  unfold State.hostAct
  rw [hostIndex_of_rsp hr]
  cases rspErr r <;> rfl

end

/-! ### Samples -/

/-- A step of the host that is a sample leaves the commands on offer. -/
theorem hostSample_cmds (s : State) (button : Button) (rest : List HostAction) :
    (State.hostSample button rest s).cmds = s.cmds := by
  unfold State.hostSample
  split <;> rfl

theorem sameBlock_hostSample (s : State) (button : Button) (rest : List HostAction) :
    sameBlock s (State.hostSample button rest s) := by
  unfold State.hostSample
  split <;> exact ⟨rfl, rfl, rfl, rfl, rfl⟩

/-- Settles O49: the driver's turn is the sample, whose outcome is decided by the line's level. -/
theorem samplesMoveAndRedraw : Obligations.SamplesMoveAndRedraw := by
  intro s button rest hq hr hc hd ht
  have hturn : DriverTurn (.sample button :: rest) s := ⟨hq, hr, hc, hd, ht⟩
  refine ⟨_, step_hostAct hturn, sameBlock_hostSample s button rest, (hostSample_cmds s button rest).trans hc,
    fun hline => ?_, fun hline => ?_⟩ <;> rw [State.hostAct]
  · rw [hostSample_idle s button rest hline]
    exact ⟨sampled_cursor s.host button, rfl⟩
  · rw [hostSample_pressed s button rest hline]
    exact ⟨rfl, rfl⟩

/-! ### The driver for ever -/

/-- No step takes the driver away. -/
theorem step_driver {s t : State} (h : step s = .next t) : t.host.driver = s.host.driver := by
  obtain ⟨-, hrestart⟩ | ⟨-, rfl⟩ | hsame := step_host h
  · rw [hrestart]
    rfl
  · obtain ⟨cmds, host, hframe, hdriver⟩ := hostStep_frame s
    rw [hframe]
    exact hdriver
  · rw [hsame]

/-- A reset leaves the driver at its entry point, with nothing on offer (R146; log 11). -/
theorem warmReset_driver {s : State} (hd : s.host.driver = true) :
    s.warmReset.host.todo = [.boot] ∧ s.warmReset.cmds = [] := by
  rw [warmReset_cases]
  exact ⟨rfl, if_pos hd⟩

/-- Settles O53: each action is the driver's turn (`step_hostAct`), and with none left the main loop begins again. -/
theorem driverNeverEnds : Obligations.DriverNeverEnds := by
  refine ⟨fun s t => step_driver, fun s hq hr hc hd ht => step_pollCycle ⟨hq, hr, hc, hd, ht⟩,
    fun s t hstep hrst hd => ?_, fun s rest hq hr hc hd => ?_⟩
  · obtain rfl := next_inj ((step_reset hrst).symm.trans hstep)
    exact warmReset_driver hd
  · have hact (a : HostAction) (ht : s.host.todo = a :: rest) : step s = .next (State.hostAct a rest s) :=
      step_hostAct ⟨hq, hr, hc, hd, ht⟩
    refine ⟨hact .boot, hact .clear, hact .map, hact .flush, fun r ht hrsp => ?_⟩
    rw [hact .set ht, hostAct_set hrsp]
    rfl

end Sys2Proof.Proofs

/-! ## The redraw (R61, R103, R104)

The driver issues CLEAR, MAP and SET, each answered in two steps (`served`), and offers the FLUSH (`drawn`), which then
runs to its end. Until the settle's end no step shows on the LEDs (`Unseen`), so one run settles O50 and O51. -/

namespace Sys2Proof.Proofs

open Sys2Proof.Machine Sys2Proof.Safety Sys2Proof.Laws

/-! ### Runs that the LEDs do not show -/

/-- `k` steps lead from `s` to `t`, and the display is the same after each of them (R104). -/
def Unseen (k : Nat) (s t : State) : Prop :=
  run k s = .next t ∧ ∀ j ≤ k, ∃ u, run j s = .next u ∧ u.display = s.display

section
variable {s t u : State} {k m : Nat}

/-- A run given step by step by a family of states with one display. -/
theorem unseen_of_family {f : Nat → State}
    (h : ∀ j ≤ k, run j s = .next (f j) ∧ (f j).display = s.display) : Unseen k s (f k) :=
  ⟨(h k le_rfl).1, fun j hj => ⟨f j, h j hj⟩⟩

theorem unseen_of_step (h : step s = .next t) (hdisplay : t.display = s.display) : Unseen 1 s t := by
  refine ⟨run_step h, fun j hj => ?_⟩
  obtain rfl | rfl := Nat.le_one_iff_eq_zero_or_eq_one.1 hj
  · exact ⟨s, run_zero s, rfl⟩
  · exact ⟨t, run_step h, hdisplay⟩

theorem Unseen.display_eq (h : Unseen k s t) : t.display = s.display := by
  obtain ⟨hrun, hall⟩ := h
  obtain ⟨v, hv, hdisplay⟩ := hall k le_rfl
  obtain rfl := next_inj (hrun.symm.trans hv)
  exact hdisplay

theorem Unseen.trans (h : Unseen k s t) (h' : Unseen m t u) : Unseen (k + m) s u := by
  refine ⟨(run_add h.1).trans h'.1, fun j hj => ?_⟩
  obtain hk | hk := Nat.le_total j k
  · exact h.2 j hk
  · obtain ⟨v, hv, hdisplay⟩ := h'.2 (j - k) (by omega)
    refine ⟨v, ?_, hdisplay.trans h.display_eq⟩
    rw [← Nat.add_sub_cancel' hk, run_add h.1, hv]

end

/-! ### One command of the driver -/

/-- `s` after the driver issued a command that the block answered with `r`, leaving memory `m`. -/
def served (rest : List HostAction) (r : Rsp) (m : Memory) (s : State) : State :=
  { s with
    mem := m, cmds := [], owed := none, rsp := some r, rsps := s.rsps ++ [r],
    host := { s.host with todo := rest } }

section
variable {s : State} {a : HostAction} {i : Instr} {rest : List HostAction} {r : Rsp} {m : Memory}

/-- After the answer it is the driver's turn again, and the block is ready for its next command. -/
theorem driverTurn_served (h : DriverTurn (a :: rest) s) (hr : ready s = true) (r : Rsp) (m : Memory) :
    DriverTurn rest (served rest r m s) ∧ ready (served rest r m s) = true := by
  obtain ⟨hq, -, -, hd, -⟩ := h
  obtain ⟨hrst, hin, -⟩ := (quiet_iff s).1 hq
  obtain ⟨-, hphase, hf⟩ := (ready_iff s).1 hr
  have hready : ready (served rest r m s) = true := (ready_iff _).2 ⟨rfl, hphase, hf⟩
  exact ⟨⟨(quiet_iff _).2 ⟨hrst, hin, rfl⟩, ready_cmdReady hready, rfl, hd, rfl⟩, hready⟩

/-- The driver offers a command in one step. -/
theorem unseen_offer (h : DriverTurn (a :: rest) s) (hact : State.hostAct a rest s = State.offer i rest s) :
    Unseen 1 s (State.offer i rest s) :=
  unseen_of_step (by rw [step_hostAct h, hact]) rfl

/-- The driver offers a command, and the block executes it in the next step. -/
theorem unseen_served (h : DriverTurn (a :: rest) s)
    (hact : State.hostAct a rest s = State.offer i rest s) (hi : i.wellFormed = true)
    (hexec : exec i (State.offer i rest s) = .next (served rest r m s)) : Unseen 2 s (served rest r m s) := by
  have ⟨hq, hr, _⟩ := h
  have hstep : step (State.offer i rest s) = .next (served rest r m s) := by
    rw [step_legal (mover_command (s := State.offer i rest s) hq hr rfl) (decode_encode hi), hexec]
  exact (unseen_offer h hact).trans (unseen_of_step hstep rfl)

theorem unseen_clear (h : DriverTurn (.clear :: rest) s) (hr : ready s = true) :
    ∃ m, ClearMem s.mem m ∧ Unseen 2 s (served rest (okRsp 0) m s) := by
  obtain ⟨m, hexec, hm⟩ := exec_clear_of_ready (s := State.offer .clear rest s) hr
  exact ⟨m, hm, unseen_served h rfl rfl hexec⟩

theorem unseen_map (h : DriverTurn (.map :: rest) s) (hr : ready s = true) (hc : cursorOk s = true) :
    Unseen 2 s (served rest (okRsp (mapIndex s.host.cursor.x s.host.cursor.y)) s.mem s) := by
  obtain ⟨hx, hy⟩ := (cursorOk_iff s).1 hc
  refine unseen_served h rfl ((wellFormed_map_iff _ _).2 ⟨by omega, by omega⟩) ?_
  exact exec_map_onGrid (s := State.offer _ rest s) hc hr

/-- With the index of MAP in hand (R61). -/
theorem unseen_set {k : Nat} (h : DriverTurn (.set :: rest) s) (hr : ready s = true) (hk : k < 25)
    (hrsp : s.rsp = some (okRsp k)) :
    ∃ m, SetMem k ⟨255, 255, 255⟩ s.mem m ∧ Unseen 2 s (served rest (okRsp 0) m s) := by
  have hact : State.hostAct .set rest s = State.offer (.set k 255 255 255) rest s := by
    rw [hostAct_set hrsp, rspErr_okRsp, rspValue_okRsp (by omega), if_neg Bool.false_ne_true]
  obtain ⟨m, hexec, hm⟩ :=
    exec_set_inRange (s := State.offer (.set k 255 255 255) rest s) hr hk 255 255 255
  exact ⟨m, hm, unseen_served h hact ((wellFormed_set_iff k _ _ _).2 (by omega)) hexec⟩

end

/-! ### CLEAR, MAP, SET -/

/-- The physical index of the cursor's LED (R103). -/
def litIndex (s : State) : Nat := mapIndex s.host.cursor.x s.host.cursor.y

/-- `s` with the redraw drawn into memory `m` and the FLUSH on offer. -/
def drawn (rest : List HostAction) (m : Memory) (s : State) : State :=
  { s with
    mem := m, cmds := [encode .flush], owed := none, rsp := some (okRsp 0),
    rsps := s.rsps ++ [okRsp 0, okRsp (litIndex s), okRsp 0], host := { s.host with todo := rest } }

section
variable {s : State} {rest : List HostAction}

theorem litIndex_lt (hc : cursorOk s = true) : litIndex s < 25 := Nat.lt_succ_of_le (mapIndex_le hc)

/-- Seven steps draw the cursor and offer the FLUSH. -/
theorem unseen_drawn (h : DriverTurn (redraw ++ rest) s) (hr : ready s = true) (hc : cursorOk s = true)
    (hw : Memory.wf s.mem = true) :
    ∃ m, (∀ j < 25, Memory.pixel m j = if j = litIndex s then ⟨255, 255, 255⟩ else ⟨0, 0, 0⟩) ∧
      Unseen 7 s (drawn rest m s) := by
  obtain ⟨m₁, hclear, h₁⟩ := unseen_clear h hr
  obtain ⟨turn₁, ready₁⟩ := driverTurn_served h hr (okRsp 0) m₁
  have h₂ := unseen_map turn₁ ready₁ hc
  obtain ⟨turn₂, ready₂⟩ := driverTurn_served turn₁ ready₁ (okRsp (litIndex s)) m₁
  obtain ⟨m₂, hset, h₃⟩ := unseen_set turn₂ ready₂ (litIndex_lt hc) rfl
  obtain ⟨turn₃, -⟩ := driverTurn_served turn₂ ready₂ (okRsp 0) m₂
  refine ⟨m₂, fun j hj => setMem_pixel_of_clearMem (litIndex_lt hc) hj hw hclear hset, ?_⟩
  have hrun := ((h₁.trans h₂).trans h₃).trans (unseen_offer turn₃ rfl)
  simpa [served, State.offer, drawn, litIndex] using hrun

end

/-! ### The FLUSH -/

/-- A burst shows nothing. -/
theorem sent_display (k : Nat) (s : State) : (sent k s).display = s.display :=
  display_congr rfl Iff.rfl (by rw [sent, latch_append, latch_bytes])

/-- From the step that takes the FLUSH to the last one in which the settle's timer runs. -/
theorem unseen_flush {s : State} {n : Nat} {words : List Word} (hq : quiet s = true) (hr : ready s = true)
    (hc : s.cmds = encode .flush :: words) (ha : accepting 75 s.tx = true) (hn : fires n s.timer = true) :
    Unseen (76 + n) s { sent 75 s with timer := afterSteps n s.timer } := by
  have hf : s.faulted = false := ready_not_faulted hr
  have hstart : step s = .next (sent 0 s) := by
    rw [step_legal (mover_command hq (ready_cmdReady hr) hc) (decode_encode rfl), exec_flush_sent hr]
  have hburst : Unseen 75 (sent 0 s) (sent 75 s) := unseen_of_family fun j hj =>
    ⟨run_sent hq hf le_rfl ha hj, (sent_display j s).trans (sent_display 0 s).symm⟩
  have hsettle : Unseen n (sent 75 s) { sent 75 s with timer := afterSteps n s.timer } :=
    unseen_of_family (f := fun j => { sent 75 s with timer := afterSteps j s.timer }) fun j hj =>
      ⟨run_settling (s := sent 75 s) hq rfl hf hn hj, rfl⟩
  exact ((unseen_of_step hstart (sent_display 0 s)).trans hburst).trans hsettle

/-! ### The whole redraw -/

section
variable {s : State} {rest : List HostAction} {m : Memory}

theorem quiet_drawn (hq : quiet s = true) : quiet (drawn rest m s) = true := by
  obtain ⟨hrst, hin, -⟩ := (quiet_iff s).1 hq
  exact (quiet_iff _).2 ⟨hrst, hin, rfl⟩

theorem ready_drawn (hr : ready s = true) : ready (drawn rest m s) = true := by
  obtain ⟨-, hphase, hf⟩ := (ready_iff s).1 hr
  exact (ready_iff _).2 ⟨rfl, hphase, hf⟩

/-- The redraw as one run: nobody sees any of its steps but the last, which is the settle's end. -/
theorem redraw_runs {n : Nat} (h : DriverTurn (redraw ++ rest) s) (hr : ready s = true) (hi : inv s = true)
    (ha : accepting 75 s.tx = true) (hn : fires n s.timer = true) :
    ∃ m, (∀ j < 25, Memory.pixel m j = if j = litIndex s then ⟨255, 255, 255⟩ else ⟨0, 0, 0⟩) ∧
      (∀ k ≤ 83 + n, ∃ u, run k s = .next u ∧ u.display = s.display) ∧
      run (84 + n) s = .next (flushed n (drawn rest m s)) := by
  obtain ⟨hblock, -, -, hcursor, -⟩ := (inv_iff s).1 hi
  obtain ⟨hw, -⟩ := (blockOk_iff s).1 hblock
  obtain ⟨m, hlit, hdraw⟩ := unseen_drawn h hr hcursor hw
  obtain ⟨hq, -⟩ := h
  have hq : quiet (drawn rest m s) = true := quiet_drawn hq
  have hr : ready (drawn rest m s) = true := ready_drawn hr
  have hlast := step_flushed hq (ready_not_faulted hr) hn
  obtain ⟨hrun, hdark⟩ := hdraw.trans (unseen_flush hq hr rfl ha hn)
  refine ⟨m, hlit, fun k hk => hdark k (by omega), ?_⟩
  rw [show 84 + n = 7 + (76 + n) + 1 by omega, run_add hrun, run_step hlast, run_zero]

/-- What the LEDs show after the redraw (R21). -/
theorem flushed_drawn_display (n : Nat) (hr : ready s = true) (hi : inv s = true) (hwarm : s.warm = false) :
    (flushed n (drawn rest m s)).display = some ((List.range 25).map (Memory.pixel m)) := by
  have hopen : openBytes [] (drawn rest m s).trace = [] := openBytes_of_ready (s := s) hr hi
  rw [flushed_display n (ready_drawn hr) hopen]
  exact if_neg (by simp [drawn, hwarm])

theorem led_of_display {j : Nat} (hd : s.display = some ((List.range 25).map (Memory.pixel m))) (hj : j < 25) :
    s.led j = some (Memory.pixel m j) := by
  rw [State.led, hd]
  simp [hj]

end

/-- Settles O50: `redraw_runs`, and the state it ends in, part by part. -/
theorem redrawLightsTheCursor : Obligations.RedrawLightsTheCursor := by
  intro s rest n hq hr hc hd ht hi ha hn
  obtain ⟨m, hlit, -, hrun⟩ := redraw_runs ⟨hq, ready_cmdReady hr, hc, hd, ht⟩ hr hi ha hn
  refine ⟨_, hrun, rfl, rfl, ready_flushed (ready_drawn hr), hlit, rfl, ?_, fun hwarm j hj => ?_⟩
  · simp [flushed, answered, drawn, litIndex]
  · exact (led_of_display (flushed_drawn_display n hr hi hwarm) hj).trans (congrArg some (hlit j hj))

/-- Settles O51: `redraw_runs`, whose last step latches the frame. -/
theorem redrawIsAtomicForTheObserver : Obligations.RedrawIsAtomicForTheObserver := by
  intro s rest n hq hr hc hd ht hi hwarm ha hn
  obtain ⟨m, -, hdark, hrun⟩ := redraw_runs ⟨hq, ready_cmdReady hr, hc, hd, ht⟩ hr hi ha hn
  exact ⟨hdark, _, hrun, flushed_drawn_display n hr hi hwarm⟩

end Sys2Proof.Proofs

/-! ## The fault register (R119, R121 to R127)

What a command raises is decided by its word and its operands alone (`executes_fault_eq`): O36 and O35. A faulted
block answers every word with its cause (`step_command_of_faulted`): O34 and, from reset without a transmitter, O37. -/

namespace Sys2Proof.Proofs

open Sys2Proof.Machine Sys2Proof.Safety Sys2Proof.Laws

/-! ### Which commands raise OutOfRange -/

/-- The operands of the command are in range (R68, R76); CLEAR and FLUSH have none. -/
def operandsInRange : Instr → Bool
  | .map x y => coordInRange x y
  | .set k _ _ _ => indexInRange k
  | .clear => true
  | .flush => true

/-- An executed command raises OutOfRange, with its own word, where its operands are not in range, and else nothing. -/
theorem executes_fault_eq {i : Instr} {s t : State} (h : Executes i s t) : t.fault =
    if operandsInRange i = true then s.fault else { cause := .outOfRange, info := encode i } := by
  cases i with
  | map x y => obtain ⟨hx, rfl⟩ | ⟨hx, rfl⟩ := h <;> simp [operandsInRange, hx]
  | set k r g b => obtain ⟨hk, m, rfl, -⟩ | ⟨hk, rfl⟩ := h <;> simp [operandsInRange, hk]
  | clear =>
    obtain ⟨m, rfl, -⟩ := h
    rfl
  | flush =>
    obtain rfl : t = _ := h
    rfl

/-- The operations and operands that raise OutOfRange, by their numbers. -/
theorem operandsInRange_false_iff (i : Instr) : operandsInRange i = false ↔
    (∃ x y, i = .map x y ∧ (4 < x ∨ 4 < y)) ∨ ∃ k r g b, i = .set k r g b ∧ 24 < k := by
  cases i with
  | map x y => simp [operandsInRange, coordInRange_false, Nat.succ_le_iff]
  | set k r g b => simp [operandsInRange, indexInRange_false, Nat.succ_le_iff]
  | clear => simp [operandsInRange]
  | flush => simp [operandsInRange]

/-! ### A fault register that explains itself -/

section
variable {s t : State} {w : Word} {i : Instr}

/-- The fault register and, for IoFailure, the phase and the position are all that R119 speaks of. -/
theorem faultExplained_of_same (h : faultExplained s = true) (hfault : t.fault = s.fault)
    (hphase : t.txPhase = s.txPhase) (hpos : t.txPos = s.txPos) : faultExplained t = true := by
  simpa only [faultExplained, hfault, hphase, hpos] using h

theorem faultExplained_of_sameBlock (h : faultExplained s = true) (hsame : sameBlock s t) :
    faultExplained t = true := by
  obtain ⟨-, hphase, hpos, hfault, -⟩ := hsame
  exact faultExplained_of_same h hfault hphase hpos

/-- Without a fault the phase and the position do not matter. -/
theorem faultExplained_of_not_faulted (h : faultExplained s = true) (hf : s.faulted = false)
    (hfault : t.fault = s.fault) : faultExplained t = true := by
  have hc : s.fault.cause = .none := (not_faulted_iff s).1 hf
  simpa only [faultExplained, hfault, hc] using h

/-- The word of a command whose operands are out of range explains OutOfRange. -/
theorem faultExplained_outOfRange (hfault : t.fault = { cause := .outOfRange, info := w })
    (hd : decode w = some i) (hout : operandsInRange i = false) : faultExplained t = true := by
  simp only [faultExplained, hfault, hd]
  cases i with
  | map x y => simpa [operandsInRange] using hout
  | set k r g b => simpa [operandsInRange] using hout
  | clear => cases hout
  | flush => cases hout

/-! ### Every step -/

theorem warmReset_faultExplained (s : State) : faultExplained s.warmReset = true := by
  rw [warmReset_cases]
  cases ha : s.tx.available <;> rfl

theorem release_faultExplained (h : faultExplained s = true) : faultExplained s.release = true := by
  obtain ⟨-, hc⟩ | ⟨-, hc⟩ := release_cases s <;> rw [hc]
  · exact faultExplained_of_same h rfl rfl rfl
  · rfl

/-- A burst is frozen at the byte that was refused (R88, R119). -/
theorem collaboratorStep_faultExplained (hburst : s.txPhase = .burst) (hf : s.faulted = false)
    (h : faultExplained s = true) : faultExplained s.collaboratorStep = true := by
  obtain ⟨-, hc⟩ | ⟨-, -, hc⟩ | ⟨-, -, hc⟩ := collaboratorStep_cases s <;> rw [hc]
  · exact faultExplained_of_not_faulted h hf rfl
  · simp [faultExplained, hburst]
  · exact faultExplained_of_not_faulted h hf rfl

theorem executes_faultExplained (hd : decode w = some i) (hr : ready s = true) (he : Executes i s t)
    (h : faultExplained s = true) : faultExplained t = true := by
  obtain ⟨-, hw⟩ := encode_of_decode hd
  have hfault := executes_fault_eq he
  cases hin : operandsInRange i with
  | true => exact faultExplained_of_not_faulted h (ready_not_faulted hr) (by simpa [hin] using hfault)
  | false => exact faultExplained_outOfRange (by simpa [hin, hw] using hfault) hd hin

theorem raised_illegal_faultExplained (hd : decode w = none) :
    faultExplained (raised .illegalCommand w s) = true := by
  simp [faultExplained, hd]

end

/-- Settles O36: whoever moves (`step_next`), a cause comes with the info that R119 gives it, and a register that
stays goes on explaining itself, since only a block without a fault moves its phase. -/
theorem stepKeepsTheFaultExplained : Obligations.StepKeepsTheFaultExplained := by
  intro s t hs h
  obtain ⟨-, rfl⟩ | ⟨-, rfl⟩ | ⟨hm, rfl⟩ | ⟨hm, rfl⟩ | ⟨-, rfl⟩ | ⟨-, rfl⟩ |
    ⟨w, i, -, hd, hexec⟩ | ⟨w, -, hd, hexec⟩ := step_next h
  · exact warmReset_faultExplained s
  · exact release_faultExplained hs
  · obtain ⟨-, -, hburst, hf⟩ := (mover_says s).2.2.1 hm
    exact collaboratorStep_faultExplained hburst hf hs
  · obtain ⟨-, -, -, hf⟩ := (mover_says s).2.2.2.1 hm
    exact faultExplained_of_not_faulted hs hf (timerStep_fault s)
  · exact faultExplained_of_sameBlock hs (sameBlock_deliver s)
  · exact faultExplained_of_sameBlock hs (sameBlock_hostStep s)
  · obtain ⟨hsame, -⟩ | ⟨hr, he⟩ := exec_block hexec
    · exact faultExplained_of_sameBlock hs hsame
    · exact executes_faultExplained hd hr he hs
  · obtain ⟨hsame, -⟩ | ⟨-, rfl⟩ := execIllegal_block hexec
    · exact faultExplained_of_sameBlock hs hsame
    · exact raised_illegal_faultExplained hd

/-! ### The order of the checks -/

/-- A ready block raises by its word: IllegalCommand if it does not decode, OutOfRange if its operands are out of
range, and else nothing (R125). -/
theorem step_fault_of_ready {s : State} {w : Word} {rest : List Word} (hq : quiet s = true)
    (hr : ready s = true) (hc : s.cmds = w :: rest) : ∃ t, step s = .next t ∧
      ((decode w = none ∧ t.fault.cause = .illegalCommand) ∨ ∃ i, decode w = some i ∧
        t.fault.cause = if operandsInRange i = true then .none else .outOfRange) := by
  have hm : s.mover = .command w := mover_command hq (ready_cmdReady hr) hc
  cases hd : decode w with
  | none => exact ⟨_, (step_illegal hm hd).trans (execIllegal_of_ready hr w), .inl ⟨rfl, rfl⟩⟩
  | some i =>
    obtain ⟨t, ht, he⟩ := exec_of_ready hr i
    refine ⟨t, (step_legal hm hd).trans ht, .inr ⟨i, rfl, ?_⟩⟩
    rw [executes_fault_eq he, apply_ite FaultReg.cause, ready_cause hr]

/-- Settles O35: by whether the word decodes, then by whether its operands are in range. -/
theorem faultsFollowTheOrderOfChecks : Obligations.FaultsFollowTheOrderOfChecks := by
  refine ⟨fun s w rest hq hr hc => ?_, by decide⟩
  obtain ⟨t, hstep, ⟨hd, hcause⟩ | ⟨i, hd, hcause⟩⟩ := step_fault_of_ready hq hr hc
  · exact ⟨t, hstep, by simp [hd, hcause]⟩
  · refine ⟨t, hstep, ?_⟩
    simp only [hd, Option.some.injEq, ← operandsInRange_false_iff, hcause]
    cases operandsInRange i <;> simp

/-! ### A faulted block -/

theorem settling_of_faulted {s : State} (hf : s.faulted = true) : s.settling = false := by
  simp [State.settling, hf]

/-- A faulted block answers a word that spells no operation like any other (R126). -/
theorem execIllegal_of_faulted {s : State} (hf : s.faulted = true) (ho : s.owed = none) (w : Word) :
    execIllegal w s = .next (answered s (errRsp s.fault.cause)) :=
  runCommand_halted hf ho

/-- The step of a faulted block that takes a word, whatever the word (R126). -/
theorem step_command_of_faulted {s : State} {w : Word} (hm : s.mover = .command w) (hf : s.faulted = true)
    (ho : s.owed = none) : step s = .next (answered s (errRsp s.fault.cause)) := by
  cases hd : decode w with
  | none => rw [step_illegal hm hd, execIllegal_of_faulted hf ho]
  | some i => rw [step_legal hm hd, exec_of_faulted hf ho]

/-- Settles O34: the command is answered and not executed, and of the agents that could move the block each asks
that it be not faulted (`step_of_faulted`). -/
theorem faultedBlockIsHalted : Obligations.FaultedBlockIsHalted :=
  ⟨fun i _ hf ho => exec_of_faulted hf ho i, fun w _ hf ho => execIllegal_of_faulted hf ho w,
    fun _ _ => step_of_faulted, fun _ hf => ⟨offered_of_faulted hf, settling_of_faulted hf⟩⟩

/-- Settles O37: the launched block is faulted, so it answers its first word with its cause, whose response is
`0x102`. -/
theorem noTransmitterIsResourceExhausted : Obligations.NoTransmitterIsResourceExhausted := by
  refine ⟨fun p => ⟨rfl, rfl⟩, fun p w => ?_⟩
  have hm : ((State.launch p false).place w).mover = .command w := mover_command rfl rfl rfl
  have hrsp : errRsp .resourceExhausted = 0x102#9 := by decide
  exact ⟨_, step_command_of_faulted hm rfl rfl, congrArg (fun r => [r]) hrsp, rfl, rfl⟩

end Sys2Proof.Proofs

/-! ## Reset inside a run, the settle timer's duty, and the boot (R142 to R146, R156)

A reset leaves the block at its reset values, at the operation level (O40) and cycle by cycle (O57). A settle whose
timer only runs on is a fixed point of the step: O60. From the state after reset the driver boots, and its first
redraw lights the origin: O52. -/

namespace Sys2Proof.Proofs

open Sys2Proof.Machine Sys2Proof.Safety Sys2Proof.Laws

/-! ### A reset inside the run is remembered -/

section
variable {s t : State}

@[simp] theorem release_warm (s : State) : s.release.warm = s.warm := by
  obtain ⟨-, h⟩ | ⟨-, h⟩ := release_cases s <;> simp [h]

@[simp] theorem collaboratorStep_warm (s : State) : s.collaboratorStep.warm = s.warm := by
  obtain ⟨-, h⟩ | ⟨-, -, h⟩ | ⟨-, -, h⟩ := collaboratorStep_cases s <;> simp [h]

@[simp] theorem timerStep_warm (s : State) : s.timerStep.warm = s.warm := by
  obtain ⟨-, h⟩ | ⟨-, h⟩ := timerStep_cases s <;> simp [h]

/-- A reset is remembered, whether it is the first one or not (R144). -/
@[simp] theorem warmReset_warm (s : State) : s.warmReset.warm = (s.warm || !s.inReset) := by
  rw [warmReset_cases]
  rfl

theorem step_keeps_warm (hw : s.warm = true) (h : step s = .next t) : t.warm = true := by
  cases step_block h with
  | reset => simp [hw]
  | release => rwa [release_warm]
  | collaborator => rwa [collaboratorStep_warm]
  | timer => rwa [timerStep_warm]
  | executed _ _ _ he =>
    obtain ⟨-, hwarm⟩ := executes_trace_warm he
    rwa [hwarm]
  | illegal => rwa [raised_warm]
  | unchanged _ hwarm => rwa [hwarm]

/-- After a reset inside the run the display is unknown (R144). -/
theorem display_of_warm (hw : s.warm = true) : s.display = none := by
  simp [State.display, hw]

end

/-- Settles O40: the reset moves before anything else, and no step forgets that there was one. -/
theorem warmResetForgetsEverything : Obligations.WarmResetForgetsEverything := by
  refine ⟨fun s hrst hin => ⟨_, step_reset hrst, ?_⟩, fun s t hw hstep => ?_⟩
  · have hwarm : s.warmReset.warm = true := by simp [hin]
    rw [warmReset_cases] at hwarm ⊢
    exact ⟨rfl, rfl, rfl, rfl, rfl, rfl, rfl, hwarm⟩
  · have hwarm := step_keeps_warm hw hstep
    exact ⟨hwarm, display_of_warm hwarm⟩

/-! ### Reset at the word level -/

section
variable {p q : Pins} {s : State}

/-- The first cycle without `rst` samples `tx_avail` (R143). -/
theorem releaseCycle_inReset (hin : s.inReset = true) :
    releaseCycle q s = State.initCheck q.txAvail { s with inReset := false } := if_pos hin

/-- The state of a released block: its reset values, with the fault of the initialisation check (R122, R142). -/
theorem releaseCycle_resetBlock (q : Pins) (s : State) :
    releaseCycle q { State.resetBlock s with inReset := true } =
      { State.resetBlock s with
        inReset := false, fault := { cause := if q.txAvail then .none else .resourceExhausted, info := 0 } } := by
  rw [releaseCycle_inReset rfl, State.initCheck]
  cases q.txAvail <;> rfl

/-- A block that takes commands and is offered none does nothing in a cycle, and gives no response. -/
theorem cycle_without_command (hrst : q.rst = false) (hvalid : q.cmdValid = false)
    (hr : (releaseCycle q s).cmdReady = true) :
    cycle q s = (releaseCycle q s, outsOf (releaseCycle q s) none) := by
  obtain ⟨howed, -⟩ := (cmdReady_iff _).1 hr
  have hblock : blockCycle q (releaseCycle q s) = releaseCycle q s := by
    rw [blockCycle_of_cmdReady hr, hvalid, if_neg Bool.false_ne_true]
  simp only [cycle, hrst, hblock, deliver_quiet howed, howed]
  cases q.giveRsp <;> rfl

/-- What a cycle with `rst` shows: no command is taken, no byte offered and no response given (R142). -/
theorem cycle_reset_outs (s : State) (hrst : p.rst = true) :
    (cycle p s).2.cmdReady = false ∧ (cycle p s).2.txData = none ∧ (cycle p s).2.rsp = none := by
  rw [cycle, if_pos hrst]
  exact ⟨rfl, rfl, rfl⟩

end

/-- Settles O57: the cycle with `rst` leaves `resetBlock`, and the next one without it the released block, which takes
commands. -/
theorem resetCyclesAndRelease : Obligations.ResetCyclesAndRelease := by
  refine ⟨fun p s hrst => ?_, fun p q s hp hq hvalid => ?_⟩
  · obtain ⟨hready, hbyte, hrsp⟩ := cycle_reset_outs s hrst
    refine ⟨hready, hbyte, hrsp, ?_⟩
    rw [cycle_reset s hrst]
    exact ⟨rfl, rfl, rfl, rfl, rfl⟩
  · have hrel := releaseCycle_resetBlock q s
    have hr : (releaseCycle q { State.resetBlock s with inReset := true }).cmdReady = true := by
      rw [hrel]
      rfl
    rw [cycle_reset s hp, cycle_without_command hq hvalid hr]
    refine ⟨?_, ?_, hr, rfl⟩ <;> rw [hrel]

/-! ### A settle whose timer never fires -/

/-- A timer whose list is used up gives its last answer for ever. -/
theorem timer_advance_of_nil {c : SettleTimer} (h : c.answers = []) : c.answer = c.rest ∧ c.advance = c := by
  obtain ⟨answers, rest⟩ := c
  obtain rfl : answers = [] := h
  exact ⟨rfl, rfl⟩

/-- Settles O60: the step of a timer that only runs on is a fixed point. -/
theorem unfiredSettleIsStuckForever : Obligations.UnfiredSettleIsStuckForever := by
  intro s n hq hs hf hnil hrunning
  obtain ⟨hanswer, hadvance⟩ := timer_advance_of_nil hnil
  refine run_of_fixed ?_ n
  rw [step_running hq hs hf (hanswer.trans hrunning), hadvance]

/-! ### The boot -/

/-- A collaborator that accepts every byte from now on accepts any number of them. -/
theorem accepting_of_nil {c : Collaborator} (hnil : c.answers = []) (hrest : c.rest = .accepted) (n : Nat) :
    accepting n c = true := by
  obtain ⟨hanswer, hadvance⟩ := advance_of_nil hnil
  induction n with
  | zero => rfl
  | succ n ih => simp [accepting, hanswer, hadvance, hrest, ih]

/-- The machine after the driver's entry point: as after reset, with the first redraw to do (R146). -/
def booted (p : Params) : State := State.hostDoes redraw (State.launch p true)

theorem step_launch (p : Params) : step (State.launch p true) = .next (booted p) :=
  step_hostAct (a := .boot) (rest := []) ⟨rfl, rfl, rfl, rfl, rfl⟩

/-- What the driver has to do is not in the invariants. -/
theorem inv_booted (p : Params) : inv (booted p) = true := inv_launch p true

/-- Settles O52: the entry point, then the redraw at the origin (O50), whose index is 0. -/
theorem bootLightsTheOrigin : Obligations.BootLightsTheOrigin := by
  intro p
  have ha : accepting 75 (booted p).tx = true := accepting_of_nil rfl rfl 75
  obtain ⟨t, hrun, hhost, -, hready, -, -, -, hled⟩ :=
    redrawLightsTheCursor (booted p) [] 0 rfl rfl rfl rfl rfl (inv_booted p) ha rfl
  exact ⟨t, (run_step (step_launch p)).trans hrun, congrArg HostState.driver hhost,
    congrArg HostState.todo hhost, congrArg HostState.cursor hhost, hready, hled rfl⟩

end Sys2Proof.Proofs
